-- ==== Sys2Proof/Word.lean ====
section
/-! DEFINITION. The types of values: bytes, bus words, AES words and blocks, and the two configuration names
(00_scope R13 to R15, 20_memory R71). What is computed from them stands in Machine/Bytes.lean. -/

namespace Sys2Proof

/-- A byte is 8 bits (R14). -/
abbrev Byte := BitVec 8

/-- The 32-bit value a transaction carries on the port (R71). -/
abbrev Word := BitVec 32

/-- A word of AES is "an ordered sequence of 4 bytes `w = (w.0, w.1, w.2, w.3)`" (R14). -/
@[ext]
structure AesWord where
  b0 : Byte
  b1 : Byte
  b2 : Byte
  b3 : Byte
deriving DecidableEq, Repr, Inhabited

/-- A block, viewed as a state: four columns, column c being the word `(s[0][c], s[1][c], s[2][c], s[3][c])`
(R15). -/
@[ext]
structure Block where
  c0 : AesWord
  c1 : AesWord
  c2 : AesWord
  c3 : AesWord
deriving DecidableEq, Repr, Inhabited

/-- The word of four bytes 00. -/
def AesWord.zero : AesWord := ⟨0, 0, 0, 0⟩

/-- The block of sixteen bytes 00. -/
def Block.zero : Block := ⟨AesWord.zero, AesWord.zero, AesWord.zero, AesWord.zero⟩

/-- CTRL.DIR (R36). -/
inductive Direction where
  | encrypt
  | decrypt
deriving DecidableEq, Repr, Inhabited

/-- CTRL.MODE (R37). -/
inductive ChainMode where
  | ecb
  | cbc
deriving DecidableEq, Repr, Inhabited

end Sys2Proof
end

