-- ==== Sys2Proof/Machine/Bytes.lean ====
section
/-! DEFINITION. Byte order and the plain operations on words and blocks: the index maps of 00_scope R15 and R16, the
packing of 20_memory R74 to R77. -/

namespace Sys2Proof

/-! ### Words -/

/-- Byte `w.i` (R14). -/
def AesWord.get (w : AesWord) (i : Fin 4) : Byte :=
  match i with
  | 0 => w.b0
  | 1 => w.b1
  | 2 => w.b2
  | 3 => w.b3

/-- The word `(f 0, f 1, f 2, f 3)`. -/
def AesWord.ofFn (f : Fin 4 → Byte) : AesWord := ⟨f 0, f 1, f 2, f 3⟩

/-- `^` on words, "element by element" (R16). -/
def AesWord.xor (a b : AesWord) : AesWord := ⟨a.b0 ^^^ b.b0, a.b1 ^^^ b.b1, a.b2 ^^^ b.b2, a.b3 ^^^ b.b3⟩

/-- `f` on each byte. -/
def AesWord.map (f : Byte → Byte) (w : AesWord) : AesWord := ⟨f w.b0, f w.b1, f w.b2, f w.b3⟩

/-- `rotl(w, k)`: byte i of the result is `w.(i+k)`, indices mod 4, which is addition of Fin 4 (R16). -/
def AesWord.rotl (w : AesWord) (k : Fin 4) : AesWord := AesWord.ofFn fun i => w.get (i + k)

/-! ### Blocks -/

/-- Column c of a state (R15). -/
def Block.col (s : Block) (c : Fin 4) : AesWord :=
  match c with
  | 0 => s.c0
  | 1 => s.c1
  | 2 => s.c2
  | 3 => s.c3

/-- `s[r][c]` (R15). -/
def Block.at (s : Block) (r c : Fin 4) : Byte := (s.col c).get r

/-- The state with the given columns. -/
def Block.ofCols (f : Fin 4 → AesWord) : Block := ⟨f 0, f 1, f 2, f 3⟩

/-- The state with `s[r][c] = f r c`. -/
def Block.ofFn (f : Fin 4 → Fin 4 → Byte) : Block := Block.ofCols fun c => AesWord.ofFn fun r => f r c

/-- `^` on states, element by element (R16). -/
def Block.xor (a b : Block) : Block := ⟨a.c0.xor b.c0, a.c1.xor b.c1, a.c2.xor b.c2, a.c3.xor b.c3⟩

/-- Byte k of a block is `s[k mod 4][k div 4]` (R74). -/
def Block.byte (s : Block) (k : Fin 16) : Byte := s.at (Fin.ofNat 4 (k.val % 4)) (Fin.ofNat 4 (k.val / 4))

/-- The sixteen bytes of a block in order (R15, R74). -/
def Block.bytes (s : Block) : List Byte := (List.finRange 16).map s.byte

/-! ### Packing on the port -/

/-- `pack(w) = w.0 ‖ w.1 ‖ w.2 ‖ w.3` (R76). -/
def pack (w : AesWord) : Word := w.b0 ++ w.b1 ++ w.b2 ++ w.b3

/-- `unpack(v) = (v[31:24], v[23:16], v[15:8], v[7:0])` (R76). -/
def unpack (v : Word) : AesWord :=
  ⟨v.extractLsb' 24 8, v.extractLsb' 16 8, v.extractLsb' 8 8, v.extractLsb' 0 8⟩

/-- The block held by four registers: register j is column j (R77). -/
def blockOfRegs (v : Vector Word 4) : Block := ⟨unpack v[0], unpack v[1], unpack v[2], unpack v[3]⟩

/-- The four registers that hold a block: register j is `pack(column j)` (R77). -/
def regsOfBlock (s : Block) : Vector Word 4 := #v[pack s.c0, pack s.c1, pack s.c2, pack s.c3]

/-- Four registers of zeros. -/
def zeroRegs : Vector Word 4 := Vector.replicate 4 0

end Sys2Proof
end

