-- ==== Sys2Proof/Machine/FieldTables.lean ====
section
/-! DEFINITION. FFT, the finite-field tables (40_field_tables): GF(2^8) arithmetic, the multiplication tables, the
round constants, the substitution box and its inverse, and the MixColumns matrices. They are fixed contents, not
state (R62). A table is the spec's 16 by 16 grid: "the entry for byte b is in row `b >> 4` and column `b & 0xF`". -/

namespace Sys2Proof

/-! ### GF(2^8) arithmetic -/

/-- `xtime(b) = (b << 1)[7:0] ^ (b[7] ? 0x1B : 0x00)` (R141). -/
def xtime (b : Byte) : Byte := (b <<< 1) ^^^ (if b.getLsbD 7 then 0x1B else 0x00)

/-- The loop of R142 from bit k on, with `n` bits still to go: `if b[k] = 1 then p <- p ^ a`, `a <- xtime(a)`. -/
def gmulFrom (b : Byte) : Nat → Nat → Byte → Byte → Byte
  | 0, _, _, p => p
  | n + 1, k, a, p => gmulFrom b n (k + 1) (xtime a) (if b.getLsbD k then p ^^^ a else p)

/-- `a ⊗ b`, "the standard double-and-reduce algorithm" (R142). -/
def gmul (a b : Byte) : Byte := gmulFrom b 8 0 a 0

/-- The entry of a grid for byte b: row `b >> 4`, column `b & 0xF`. -/
def gridEntry (rows : List (BitVec 128)) (b : Byte) : Byte :=
  (rows.getD (b.toNat / 16) 0).extractLsb' (8 * (15 - b.toNat % 16)) 8

/-! ### The tables -/

/-- SBOX (R148), a row of the spec's grid a line. -/
def sboxRows : List (BitVec 128) :=
  [0x637C777BF26B6FC53001672BFED7AB76,
   0xCA82C97DFA5947F0ADD4A2AF9CA472C0,
   0xB7FD9326363FF7CC34A5E5F171D83115,
   0x04C723C31896059A071280E2EB27B275,
   0x09832C1A1B6E5AA0523BD6B329E32F84,
   0x53D100ED20FCB15B6ACBBE394A4C58CF,
   0xD0EFAAFB434D338545F9027F503C9FA8,
   0x51A3408F929D38F5BCB6DA2110FFF3D2,
   0xCD0C13EC5F974417C4A77E3D645D1973,
   0x60814FDC222A908846EEB814DE5E0BDB,
   0xE0323A0A4906245CC2D3AC629195E479,
   0xE7C8376D8DD54EA96C56F4EA657AAE08,
   0xBA78252E1CA6B4C6E8DD741F4BBD8B8A,
   0x703EB5664803F60E613557B986C11D9E,
   0xE1F8981169D98E949B1E87E9CE5528DF,
   0x8CA1890DBFE6426841992D0FB054BB16]

/-- INVSBOX (R150), a row of the spec's grid a line. -/
def invSboxRows : List (BitVec 128) :=
  [0x52096AD53036A538BF40A39E81F3D7FB,
   0x7CE339829B2FFF87348E4344C4DEE9CB,
   0x547B9432A6C2233DEE4C950B42FAC34E,
   0x082EA16628D924B2765BA2496D8BD125,
   0x72F8F66486689816D4A45CCC5D65B692,
   0x6C704850FDEDB9DA5E154657A78D9D84,
   0x90D8AB008CBCD30AF7E45805B8B34506,
   0xD02C1E8FCA3F0F02C1AFBD0301138A6B,
   0x3A9111414F67DCEA97F2CFCEF0B4E673,
   0x96AC7422E7AD3585E2F937E81C75DF6E,
   0x47F11A711D29C5896FB7620EAA18BE1B,
   0xFC563E4BC6D279209ADBC0FE78CD5AF4,
   0x1FDDA8338807C731B11210592780EC5F,
   0x60517FA919B54A0D2DE57A9F93C99CEF,
   0xA0E03B4DAE2AF5B0C8EBBB3C83539961,
   0x172B047EBA77D626E169146355210C7D]

/-- MUL2 (R144), a row of the spec's grid a line. -/
def mul2Rows : List (BitVec 128) :=
  [0x00020406080A0C0E10121416181A1C1E,
   0x20222426282A2C2E30323436383A3C3E,
   0x40424446484A4C4E50525456585A5C5E,
   0x60626466686A6C6E70727476787A7C7E,
   0x80828486888A8C8E90929496989A9C9E,
   0xA0A2A4A6A8AAACAEB0B2B4B6B8BABCBE,
   0xC0C2C4C6C8CACCCED0D2D4D6D8DADCDE,
   0xE0E2E4E6E8EAECEEF0F2F4F6F8FAFCFE,
   0x1B191F1D131117150B090F0D03010705,
   0x3B393F3D333137352B292F2D23212725,
   0x5B595F5D535157554B494F4D43414745,
   0x7B797F7D737177756B696F6D63616765,
   0x9B999F9D939197958B898F8D83818785,
   0xBBB9BFBDB3B1B7B5ABA9AFADA3A1A7A5,
   0xDBD9DFDDD3D1D7D5CBC9CFCDC3C1C7C5,
   0xFBF9FFFDF3F1F7F5EBE9EFEDE3E1E7E5]

/-- MUL3 (R144), a row of the spec's grid a line. -/
def mul3Rows : List (BitVec 128) :=
  [0x000306050C0F0A09181B1E1D14171211,
   0x303336353C3F3A39282B2E2D24272221,
   0x606366656C6F6A69787B7E7D74777271,
   0x505356555C5F5A59484B4E4D44474241,
   0xC0C3C6C5CCCFCAC9D8DBDEDDD4D7D2D1,
   0xF0F3F6F5FCFFFAF9E8EBEEEDE4E7E2E1,
   0xA0A3A6A5ACAFAAA9B8BBBEBDB4B7B2B1,
   0x909396959C9F9A99888B8E8D84878281,
   0x9B989D9E97949192838085868F8C898A,
   0xABA8ADAEA7A4A1A2B3B0B5B6BFBCB9BA,
   0xFBF8FDFEF7F4F1F2E3E0E5E6EFECE9EA,
   0xCBC8CDCEC7C4C1C2D3D0D5D6DFDCD9DA,
   0x5B585D5E57545152434045464F4C494A,
   0x6B686D6E67646162737075767F7C797A,
   0x3B383D3E37343132232025262F2C292A,
   0x0B080D0E07040102131015161F1C191A]

/-- MUL9 (R144), a row of the spec's grid a line. -/
def mul9Rows : List (BitVec 128) :=
  [0x0009121B242D363F48415A536C657E77,
   0x9099828BB4BDA6AFD8D1CAC3FCF5EEE7,
   0x3B3229201F160D04737A6168575E454C,
   0xABA2B9B08F869D94E3EAF1F8C7CED5DC,
   0x767F646D525B40493E372C251A130801,
   0xE6EFF4FDC2CBD0D9AEA7BCB58A839891,
   0x4D445F5669607B72050C171E2128333A,
   0xDDD4CFC6F9F0EBE2959C878EB1B8A3AA,
   0xECE5FEF7C8C1DAD3A4ADB6BF8089929B,
   0x7C756E6758514A43343D262F1019020B,
   0xD7DEC5CCF3FAE1E89F968D84BBB2A9A0,
   0x474E555C636A71780F061D142B223930,
   0x9A938881BEB7ACA5D2DBC0C9F6FFE4ED,
   0x0A0318112E273C35424B5059666F747D,
   0xA1A8B3BA858C979EE9E0FBF2CDC4DFD6,
   0x3138232A151C070E79706B625D544F46]

/-- MUL11 (R144), a row of the spec's grid a line. -/
def mul11Rows : List (BitVec 128) :=
  [0x000B161D2C273A3158534E45747F6269,
   0xB0BBA6AD9C978A81E8E3FEF5C4CFD2D9,
   0x7B706D66575C414A2328353E0F041912,
   0xCBC0DDD6E7ECF1FA9398858EBFB4A9A2,
   0xF6FDE0EBDAD1CCC7AEA5B8B38289949F,
   0x464D505B6A617C771E1508033239242F,
   0x8D869B90A1AAB7BCD5DEC3C8F9F2EFE4,
   0x3D362B20111A070C656E737849425F54,
   0xF7FCE1EADBD0CDC6AFA4B9B28388959E,
   0x474C515A6B607D761F1409023338252E,
   0x8C879A91A0ABB6BDD4DFC2C9F8F3EEE5,
   0x3C372A21101B060D646F727948435E55,
   0x010A171C2D263B3059524F44757E6368,
   0xB1BAA7AC9D968B80E9E2FFF4C5CED3D8,
   0x7A716C67565D404B2229343F0E051813,
   0xCAC1DCD7E6EDF0FB9299848FBEB5A8A3]

/-- MUL13 (R144), a row of the spec's grid a line. -/
def mul13Rows : List (BitVec 128) :=
  [0x000D1A1734392E236865727F5C51464B,
   0xD0DDCAC7E4E9FEF3B8B5A2AF8C81969B,
   0xBBB6A1AC8F829598D3DEC9C4E7EAFDF0,
   0x6B66717C5F524548030E1914373A2D20,
   0x6D60777A5954434E05081F12313C2B26,
   0xBDB0A7AA8984939ED5D8CFC2E1ECFBF6,
   0xD6DBCCC1E2EFF8F5BEB3A4A98A87909D,
   0x060B1C11323F28256E6374795A57404D,
   0xDAD7C0CDEEE3F4F9B2BFA8A5868B9C91,
   0x0A07101D3E332429626F7875565B4C41,
   0x616C7B7655584F420904131E3D30272A,
   0xB1BCABA685889F92D9D4C3CEEDE0F7FA,
   0xB7BAADA0838E9994DFD2C5C8EBE6F1FC,
   0x676A7D70535E49440F0215183B36212C,
   0x0C01161B3835222F64697E73505D4A47,
   0xDCD1C6CBE8E5F2FFB4B9AEA3808D9A97]

/-- MUL14 (R144), a row of the spec's grid a line. -/
def mul14Rows : List (BitVec 128) :=
  [0x000E1C123836242A707E6C624846545A,
   0xE0EEFCF2D8D6C4CA909E8C82A8A6B4BA,
   0xDBD5C7C9E3EDFFF1ABA5B7B9939D8F81,
   0x3B352729030D1F114B455759737D6F61,
   0xADA3B1BF959B8987DDD3C1CFE5EBF9F7,
   0x4D43515F757B69673D33212F050B1917,
   0x76786A644E40525C06081A143E30222C,
   0x96988A84AEA0B2BCE6E8FAF4DED0C2CC,
   0x414F5D537977656B313F2D230907151B,
   0xA1AFBDB39997858BD1DFCDC3E9E7F5FB,
   0x9A948688A2ACBEB0EAE4F6F8D2DCCEC0,
   0x7A746668424C5E500A041618323C2E20,
   0xECE2F0FED4DAC8C69C92808EA4AAB8B6,
   0x0C02101E343A28267C72606E444A5856,
   0x37392B250F01131D47495B557F71636D,
   0xD7D9CBC5EFE1F3FDA7A9BBB59F91838D]

/-- `SBOX[b]` (R148). -/
def sbox (b : Byte) : Byte := gridEntry sboxRows b

/-- `INVSBOX[b]` (R150). -/
def invSbox (b : Byte) : Byte := gridEntry invSboxRows b

/-- `MULc[b]` for the six constants of R144; 1 "is the identity and needs no table" (R145). No other constant has a
table: there the product of R142. -/
def mulTable (c b : Byte) : Byte :=
  match c.toNat with
  | 1 => b
  | 2 => gridEntry mul2Rows b
  | 3 => gridEntry mul3Rows b
  | 9 => gridEntry mul9Rows b
  | 11 => gridEntry mul11Rows b
  | 13 => gridEntry mul13Rows b
  | 14 => gridEntry mul14Rows b
  | _ => gmul c b

/-! ### The S-box by construction -/

/-- The inverse of b, "with `0x00⁻¹` taken as 0x00" (R149), as `b^254` by squaring: b^127 twice. -/
def gfInverse (b : Byte) : Byte :=
  let b2 := gmul b b
  let b4 := gmul b2 b2
  let b8 := gmul b4 b4
  let b16 := gmul b8 b8
  let b32 := gmul b16 b16
  let b64 := gmul b32 b32
  let b128 := gmul b64 b64
  gmul b128 (gmul b64 (gmul b32 (gmul b16 (gmul b8 (gmul b4 b2)))))

/-- The affine map of R149: bit k is `g[k] ^ g[k+4] ^ g[k+5] ^ g[k+6] ^ g[k+7] ^ 0x63[k]`, indices mod 8, which is
an exclusive-or of rotations to the right. -/
def sboxAffine (g : Byte) : Byte :=
  g ^^^ g.rotateRight 4 ^^^ g.rotateRight 5 ^^^ g.rotateRight 6 ^^^ g.rotateRight 7 ^^^ 0x63

/-! ### Round constants -/

/-- RCON[1..10] (R146). -/
def rconTable : List Byte := [0x01, 0x02, 0x04, 0x08, 0x10, 0x20, 0x40, 0x80, 0x1B, 0x36]

/-- `RCON[j]`, j from 1 to 10; "no other entry is ever read" (R147). -/
def rcon (j : Nat) : Byte := rconTable.getD (j - 1) 0

/-! ### The matrices -/

/-- Row i of M (R151). -/
def mixRow (i : Fin 4) : AesWord :=
  match i with
  | 0 => ⟨0x02, 0x03, 0x01, 0x01⟩
  | 1 => ⟨0x01, 0x02, 0x03, 0x01⟩
  | 2 => ⟨0x01, 0x01, 0x02, 0x03⟩
  | 3 => ⟨0x03, 0x01, 0x01, 0x02⟩

/-- Row i of the inverse matrix (R152). -/
def invMixRow (i : Fin 4) : AesWord :=
  match i with
  | 0 => ⟨0x0E, 0x0B, 0x0D, 0x09⟩
  | 1 => ⟨0x09, 0x0E, 0x0B, 0x0D⟩
  | 2 => ⟨0x0D, 0x09, 0x0E, 0x0B⟩
  | 3 => ⟨0x0B, 0x0D, 0x09, 0x0E⟩

/-- The XOR-sum over k of `m.k ⊗ a.k`: a row of a matrix times a column. -/
def gdot (m a : AesWord) : Byte := gmul m.b0 a.b0 ^^^ gmul m.b1 a.b1 ^^^ gmul m.b2 a.b2 ^^^ gmul m.b3 a.b3

/-- A matrix, given by its rows, times a column. -/
def matrixColumn (rows : Fin 4 → AesWord) (a : AesWord) : AesWord := AesWord.ofFn fun i => gdot (rows i) a

end Sys2Proof
end

