-- ==== Sys2Proof/Machine/ForwardRound.lean ====
section
/-! DEFINITION. FRP, the forward transforms (41_forward_transforms). Each is a total function of the state before it,
so every output reads the pre-transform snapshot (R173, 90_conflicts C5, 70_reset_and_hazards R414 (a)). -/

namespace Sys2Proof

/-- SubBytes: `S[r][c] <- SBOX[S[r][c]]` (R171). -/
def subBytes (s : Block) : Block := Block.ofFn fun r c => sbox (s.at r c)

/-- ShiftRows: `S'[r][c] <- S[r][(c + r) mod 4]`; addition of Fin 4 is mod 4 (R172). -/
def shiftRows (s : Block) : Block := Block.ofFn fun r c => s.at r (c + r)

/-- MixColumns: column j of the result is `M · column j` of the snapshot (R173). -/
def mixColumns (s : Block) : Block := Block.ofCols fun j => matrixColumn mixRow (s.col j)

/-- A column of MixColumns through the tables, as R173 writes it out. -/
def mixColumnTables (a : AesWord) : AesWord :=
  ⟨mulTable 2 a.b0 ^^^ mulTable 3 a.b1 ^^^ a.b2 ^^^ a.b3,
   a.b0 ^^^ mulTable 2 a.b1 ^^^ mulTable 3 a.b2 ^^^ a.b3,
   a.b0 ^^^ a.b1 ^^^ mulTable 2 a.b2 ^^^ mulTable 3 a.b3,
   mulTable 3 a.b0 ^^^ a.b1 ^^^ a.b2 ^^^ mulTable 2 a.b3⟩

/-- Word `W[i]` of the schedule store; the indices read are below 60 (R153). -/
def scheduleWord (w : Vector AesWord 60) (i : Nat) : AesWord := w[i]?.getD AesWord.zero

/-- Round-key slice k: the state whose column c is `W[4k+c]` (R216). -/
def roundKey (w : Vector AesWord 60) (k : Nat) : Block :=
  Block.ofCols fun c => scheduleWord w (4 * k + c.val)

/-- AddRoundKey: `S[r][c] <- S[r][c] ^ W[4k + c].r` (R174); the inverse pipeline uses it unchanged (R193). -/
def addRoundKey (w : Vector AesWord 60) (k : Nat) (s : Block) : Block := s.xor (roundKey w k)

end Sys2Proof
end

