-- ==== Sys2Proof/Machine/InverseRound.lean ====
section
/-! DEFINITION. IRP, the inverse transforms (42_inverse_transforms). -/

namespace Sys2Proof

/-- InvSubBytes: `S[r][c] <- INVSBOX[S[r][c]]` (R191). -/
def invSubBytes (s : Block) : Block := Block.ofFn fun r c => invSbox (s.at r c)

/-- InvShiftRows: `S'[r][c] <- S[r][(c − r) mod 4]`; subtraction of Fin 4 is the non-negative remainder (R192). -/
def invShiftRows (s : Block) : Block := Block.ofFn fun r c => s.at r (c - r)

/-- InvMixColumns: column j of the result is `M⁻¹ · column j` of the snapshot (R194). -/
def invMixColumns (s : Block) : Block := Block.ofCols fun j => matrixColumn invMixRow (s.col j)

/-- A column of InvMixColumns through the tables, as R194 writes it out. -/
def invMixColumnTables (a : AesWord) : AesWord :=
  ⟨mulTable 14 a.b0 ^^^ mulTable 11 a.b1 ^^^ mulTable 13 a.b2 ^^^ mulTable 9 a.b3,
   mulTable 9 a.b0 ^^^ mulTable 14 a.b1 ^^^ mulTable 11 a.b2 ^^^ mulTable 13 a.b3,
   mulTable 13 a.b0 ^^^ mulTable 9 a.b1 ^^^ mulTable 14 a.b2 ^^^ mulTable 11 a.b3,
   mulTable 11 a.b0 ^^^ mulTable 13 a.b1 ^^^ mulTable 9 a.b2 ^^^ mulTable 14 a.b3⟩

end Sys2Proof
end

