-- ==== Sys2Proof/Machine/BlockCipher.lean ====
section
/-! DEFINITION. The per-block round sequences Cipher and InvCipher (44_block_cipher, Listings BC-1 and BC-2). -/

namespace Sys2Proof

/-- Full round i of Cipher: SubBytes, ShiftRows, MixColumns, AddRoundKey(i) (R242). -/
def fullRound (w : Vector AesWord 60) (i : Nat) (s : Block) : Block :=
  addRoundKey w i (mixColumns (shiftRows (subBytes s)))

/-- Full rounds 1 to n, counting up. -/
def fullRounds (w : Vector AesWord 60) : Nat → Block → Block
  | 0, s => s
  | n + 1, s => fullRound w (n + 1) (fullRounds w n s)

/-- The final round omits MixColumns (R243). -/
def finalRound (w : Vector AesWord 60) (nr : Nat) (s : Block) : Block := addRoundKey w nr (shiftRows (subBytes s))

/-- Listing BC-1, `Cipher(X, W, Nr)` (R241). -/
def cipher (w : Vector AesWord 60) (nr : Nat) (x : Block) : Block :=
  finalRound w nr (fullRounds w (nr - 1) (addRoundKey w 0 x))

/-- Full round i of InvCipher: InvShiftRows, InvSubBytes, AddRoundKey(i), InvMixColumns (R245). -/
def invFullRound (w : Vector AesWord 60) (i : Nat) (s : Block) : Block :=
  invMixColumns (addRoundKey w i (invSubBytes (invShiftRows s)))

/-- Full rounds n down to 1. -/
def invFullRounds (w : Vector AesWord 60) : Nat → Block → Block
  | 0, s => s
  | n + 1, s => invFullRounds w n (invFullRound w (n + 1) s)

/-- Listing BC-2, `InvCipher(Y, W, Nr)` (R244). -/
def invCipher (w : Vector AesWord 60) (nr : Nat) (y : Block) : Block :=
  addRoundKey w 0 (invSubBytes (invShiftRows (invFullRounds w (nr - 1) (addRoundKey w nr y))))

end Sys2Proof
end

