-- ==== Sys2Proof/Machine/KeySchedule.lean ====
section
/-! DEFINITION. KX, the key expander: the word operations and Listing KX-1 (43_key_expansion R210 to R219). The
command KEYEXP that runs it is in Machine/Commands.lean. -/

namespace Sys2Proof

/-- RotWord: `(t.1, t.2, t.3, t.0)` (R211). -/
def rotWord (t : AesWord) : AesWord := t.rotl 1

/-- SubWord: SBOX on each byte (R212). -/
def subWord (t : AesWord) : AesWord := t.map sbox

/-- `t.0 <- t.0 ^ RCON[j]`: the constant is XORed into byte 0 only (R213). -/
def addRcon (j : Nat) (t : AesWord) : AesWord := ⟨t.b0 ^^^ rcon j, t.b1, t.b2, t.b3⟩

/-- The word t of step i of Listing KX-1, from the previous word: the first matching case of R215. -/
def scheduleTemp (nk i : Nat) (prev : AesWord) : AesWord :=
  if i % nk = 0 then addRcon (i / nk) (subWord (rotWord prev))
  else if nk = 8 ∧ i % nk = 4 then subWord prev
  else prev

/-- Step i of Listing KX-1: `W[i] <- W[i-Nk] ^ t`. -/
def expandStep (nk i : Nat) (w : Vector AesWord 60) : Vector AesWord 60 :=
  w.setIfInBounds i ((scheduleWord w (i - nk)).xor (scheduleTemp nk i (scheduleWord w (i - 1))))

/-- `n` steps of Listing KX-1 from index i on, in increasing order (R215). -/
def expandFrom (nk : Nat) : Nat → Nat → Vector AesWord 60 → Vector AesWord 60
  | 0, _, w => w
  | n + 1, i, w => expandFrom nk n (i + 1) (expandStep nk i w)

/-- `W[i] <- K[i]` for the first n key words (R214). -/
def copyKeyWords (key : Vector AesWord 8) : Nat → Vector AesWord 60 → Vector AesWord 60
  | 0, w => w
  | n + 1, w => (copyKeyWords key n w).setIfInBounds n (key[n]?.getD AesWord.zero)

/-- Listing KX-1 on the store w: it writes `W[0..NW−1]` and no other word (R215, R218). -/
def keyExpansion (nk nw : Nat) (key : Vector AesWord 8) (w : Vector AesWord 60) : Vector AesWord 60 :=
  expandFrom nk (nw - nk) nk (copyKeyWords key nk w)

end Sys2Proof
end

