-- ==== Sys2Proof/Config.lean ====
section
/-! DEFINITION. What an implementation or a platform fixes and the spec leaves open (00_scope R11,
93_implementation_defined section 3), and the free values: constants with no body, which no proof can evaluate. -/

namespace Sys2Proof.Config

/-- RESET_STYLE: polarity and synchrony of `rst` (R400), an argument of Machine/Timing.lean. -/
inductive ResetStyle where
  | syncHigh
  | syncLow
  | asyncHigh
  | asyncLow
deriving DecidableEq, Repr, Inhabited

/-- LAT_KEYEXP, LAT_LOADIV, LAT_BLOCK and LAT_CLEAR, the cycles a command holds BUSY: "LAT_BLOCK may depend on Nr
and DIR" (R415). An argument of Machine/Timing.lean. -/
structure Latency where
  keyexp : Nat
  loadiv : Nat
  block : Nat → Direction → Nat
  clear : Nat

/-- LONG_LINE_POLICY (R338), an argument of Machine/Adapter.lean. -/
inductive LongLinePolicy where
  | skip
  | fatal
  | truncate
deriving DecidableEq, Repr, Inhabited

/-- EMPTY_LINE_POLICY (R339), an argument of Machine/Adapter.lean. -/
inductive EmptyLinePolicy where
  | zeroBlock
  | skip
deriving DecidableEq, Repr, Inhabited

/-- S, CAP, the sequencer's counters and the MixColumns snapshot (10_state R58, R60, R61): the parts of the datapath
that mean something only inside one command. -/
structure Datapath where
  /-- the state register S (R58) -/
  s : Block
  /-- the capture register CAP (R60) -/
  cap : Block
  /-- the MixColumns snapshot (R61, R173) -/
  snapshot : Block
  /-- the key-expansion word counter i (R61) -/
  wordIndex : Fin 60
  /-- the round-constant index j (R61): that of the next constant, so 11 after the last, RCON[10] -/
  rconIndex : Fin 12
  /-- the round counter (R61) -/
  round : Fin 15
deriving DecidableEq, Repr, Inhabited

/-- FREE VALUE: what S, CAP, the counters and the snapshot hold after a command, by draw (R58, R60, R64; log 6). -/
opaque freeDatapath : Nat → Datapath

/-- FREE VALUE: what W holds after CLEAR or the reset input, by draw (R64, R274; log 6). -/
opaque freeSchedule : Nat → Vector AesWord 60

/-- FREE VALUE: what a read returns while BUSY = 1, by draw (R411; log 9). -/
opaque freeReadData : Nat → Word

end Sys2Proof.Config
end

