-- ==== Sys2Proof/Syntax.lean ====
section
/-! DEFINITION. The instructions of AESCORE: the host's transactions on the register port, one constructor for each
row of spec/opcode_table.json (30_encoding R111). An operand is a field that R104 to R109 read from the transaction
word; the bits the decoder ignores (R101, R103, R104) are no operand. -/

namespace Sys2Proof

/-- One constructor per row of the opcode table, in the table's order. -/
inductive Instr where
  /-- RD.CTRL (R300) -/
  | rdCtrl
  /-- RD.CMD (R301) -/
  | rdCmd
  /-- RD.STATUS (R302) -/
  | rdStatus
  /-- RD.RKIDX (R304) -/
  | rdRkidx
  /-- RD.RKDATA (R306) -/
  | rdRkdata
  /-- RD.RSVD5 (R308) -/
  | rdRsvd5
  /-- RD.RSVD67 (R308): j = 0 is word address 0x06, j = 1 is 0x07 -/
  | rdRsvd67 (j : Fin 2)
  /-- RD.KEY (R310) -/
  | rdKey (j : Fin 8)
  /-- RD.IV (R312) -/
  | rdIv (j : Fin 4)
  /-- RD.DIN (R314) -/
  | rdDin (j : Fin 4)
  /-- RD.DOUT (R316) -/
  | rdDout (j : Fin 4)
  /-- RD.CHAIN (R318) -/
  | rdChain (j : Fin 4)
  /-- WR.CTRL (R261), its fields assembled as R107 says -/
  | wrCtrl (ksz : BitVec 2) (dir : Direction) (mode : ChainMode)
  /-- CMD.NOP (R264) -/
  | cmdNop
  /-- CMD.KEYEXP (R220); LEN is a word count 0 to 15 (R106) -/
  | cmdKeyexp (len : Nat)
  /-- CMD.LOADIV (R267); LEN is a word count 0 to 15 (R106) -/
  | cmdLoadiv (len : Nat)
  /-- CMD.BLOCK (R270) -/
  | cmdBlock
  /-- CMD.RSVD4 (R265) -/
  | cmdRsvd4
  /-- CMD.RSVD5 (R265) -/
  | cmdRsvd5
  /-- CMD.RSVD6 (R265) -/
  | cmdRsvd6
  /-- CMD.RSVD7 (R265) -/
  | cmdRsvd7
  /-- CMD.RSVD8 (R265) -/
  | cmdRsvd8
  /-- CMD.RSVD9 (R265) -/
  | cmdRsvd9
  /-- CMD.RSVDA (R265) -/
  | cmdRsvdA
  /-- CMD.RSVDB (R265) -/
  | cmdRsvdB
  /-- CMD.RSVDC (R265) -/
  | cmdRsvdC
  /-- CMD.RSVDD (R265) -/
  | cmdRsvdD
  /-- CMD.RSVDE (R265) -/
  | cmdRsvdE
  /-- CMD.CLEAR (R274) -/
  | cmdClear
  /-- WR.STATUS (R303), which ignores the value written -/
  | wrStatus
  /-- WR.RKIDX (R305), its field assembled as R108 says -/
  | wrRkidx (index : BitVec 6)
  /-- WR.RKDATA (R307), which ignores the value written -/
  | wrRkdata
  /-- WR.RSVD5 (R309), which ignores the value written -/
  | wrRsvd5
  /-- WR.RSVD67 (R309): j = 0 is word address 0x06, j = 1 is 0x07 -/
  | wrRsvd67 (j : Fin 2)
  /-- WR.KEY (R311) -/
  | wrKey (j : Fin 8) (v : Word)
  /-- WR.IV (R313) -/
  | wrIv (j : Fin 4) (v : Word)
  /-- WR.DIN (R315) -/
  | wrDin (j : Fin 4) (v : Word)
  /-- WR.DOUT (R317), which ignores the value written -/
  | wrDout (j : Fin 4)
  /-- WR.CHAIN (R319), which ignores the value written -/
  | wrChain (j : Fin 4)
deriving DecidableEq, Repr

end Sys2Proof
end

