-- ==== Sys2Proof/WellFormed.lean ====
section
/-! DEFINITION. Which terms of Instr are instructions of AESCORE. The types bound every operand but LEN, which is a
count (30_encoding R106: "a 4-bit unsigned word count ... so 0 to 15"); its bound is the check here (log 12). -/

namespace Sys2Proof

/-- LEN fits its 4 bits (R106); every other operand is bounded by its type. -/
def Instr.wellFormed : Instr → Bool
  | .cmdKeyexp len => decide (len < 16)
  | .cmdLoadiv len => decide (len < 16)
  | .rdCtrl | .rdCmd | .rdStatus | .rdRkidx | .rdRkdata | .rdRsvd5 | .rdRsvd67 _ => true
  | .rdKey _ | .rdIv _ | .rdDin _ | .rdDout _ | .rdChain _ => true
  | .wrCtrl _ _ _ | .cmdNop | .cmdBlock | .cmdClear => true
  | .cmdRsvd4 | .cmdRsvd5 | .cmdRsvd6 | .cmdRsvd7 | .cmdRsvd8 | .cmdRsvd9 => true
  | .cmdRsvdA | .cmdRsvdB | .cmdRsvdC | .cmdRsvdD | .cmdRsvdE => true
  | .wrStatus | .wrRkidx _ | .wrRkdata | .wrRsvd5 | .wrRsvd67 _ => true
  | .wrKey _ _ | .wrIv _ _ | .wrDin _ _ | .wrDout _ | .wrChain _ => true

end Sys2Proof
end

