-- ==== Sys2Proof/Decode.lean ====
section
/-! DEFINITION. Decoding and encoding of transaction words (30_encoding R100 to R118), and the opcode table as data.
The decoder is total: "no transaction word is undecodable" (R111). What is rejected by name is a byte listing that
is no transaction word (log 11). -/

namespace Sys2Proof

/-- The 38-bit transaction word `T = WE ‖ ADDR ‖ DATA` (R100). -/
abbrev Transaction := BitVec 38

/-- WE in bit 37: true for a write (R100). -/
def weOf (t : Transaction) : Bool := t.getLsbD 37

/-- ADDR in bits 36:32 (R100). -/
def addrOf (t : Transaction) : BitVec 5 := t.extractLsb' 32 5

/-- DATA in bits 31:0 (R100). -/
def dataOf (t : Transaction) : Word := t.extractLsb' 0 32

/-- `T = WE ‖ ADDR ‖ DATA` (R100). -/
def transactionWord (we : Bool) (addr : BitVec 5) (data : Word) : Transaction :=
  BitVec.ofBool we ++ addr ++ data

/-- OP in bits 3:0 of a command word (R104). -/
def opOf (v : Word) : BitVec 4 := v.extractLsb' 0 4

/-- LEN in bits 11:8 of a command word, an unsigned word count (R104, R106). -/
def lenOf (v : Word) : Nat := (v.extractLsb' 8 4).toNat

/-- The register number of a group of 2 (ADDR[0]), 4 (ADDR[1:0]) or 8 (ADDR[2:0]). -/
def regNumber (n : Nat) [NeZero n] (a : BitVec 5) : Fin n := Fin.ofNat n a.toNat

/-- DIR of the bit written (R36, R107). -/
def directionOfBit (b : Bool) : Direction := if b then .decrypt else .encrypt

/-- MODE of the bit written (R37, R107). -/
def modeOfBit (b : Bool) : ChainMode := if b then .cbc else .ecb

/-- The row of a read, by its address (R111); DATA is ignored (R101). -/
def decodeRead (a : BitVec 5) : Instr :=
  if a.toNat < 8 then
    match a.toNat with
    | 0 => .rdCtrl
    | 1 => .rdCmd
    | 2 => .rdStatus
    | 3 => .rdRkidx
    | 4 => .rdRkdata
    | 5 => .rdRsvd5
    | _ => .rdRsvd67 (regNumber 2 a)
  else if a.toNat < 16 then .rdKey (regNumber 8 a)
  else if a.toNat < 20 then .rdIv (regNumber 4 a)
  else if a.toNat < 24 then .rdDin (regNumber 4 a)
  else if a.toNat < 28 then .rdDout (regNumber 4 a)
  else .rdChain (regNumber 4 a)

/-- The command of a value written to CMD (R104, R105): bits 31:12 and 7:4 are ignored. -/
def decodeCommand (v : Word) : Instr :=
  match (opOf v).toNat with
  | 0x0 => .cmdNop
  | 0x1 => .cmdKeyexp (lenOf v)
  | 0x2 => .cmdLoadiv (lenOf v)
  | 0x3 => .cmdBlock
  | 0x4 => .cmdRsvd4
  | 0x5 => .cmdRsvd5
  | 0x6 => .cmdRsvd6
  | 0x7 => .cmdRsvd7
  | 0x8 => .cmdRsvd8
  | 0x9 => .cmdRsvd9
  | 0xA => .cmdRsvdA
  | 0xB => .cmdRsvdB
  | 0xC => .cmdRsvdC
  | 0xD => .cmdRsvdD
  | 0xE => .cmdRsvdE
  | _ => .cmdClear

/-- WR.CTRL with `KSZ = v[1:0]`, `DIR = v[2]`, `MODE = v[3]`; `v[31:4]` is ignored (R107). -/
def decodeCtrl (v : Word) : Instr :=
  .wrCtrl (v.extractLsb' 0 2) (directionOfBit (v.getLsbD 2)) (modeOfBit (v.getLsbD 3))

/-- The row of a write, by its address and, for CMD, by OP (R102, R103). -/
def decodeWrite (a : BitVec 5) (v : Word) : Instr :=
  if a.toNat < 8 then
    match a.toNat with
    | 0 => decodeCtrl v
    | 1 => decodeCommand v
    | 2 => .wrStatus
    | 3 => .wrRkidx (v.extractLsb' 0 6)
    | 4 => .wrRkdata
    | 5 => .wrRsvd5
    | _ => .wrRsvd67 (regNumber 2 a)
  else if a.toNat < 16 then .wrKey (regNumber 8 a) v
  else if a.toNat < 20 then .wrIv (regNumber 4 a) v
  else if a.toNat < 24 then .wrDin (regNumber 4 a) v
  else if a.toNat < 28 then .wrDout (regNumber 4 a)
  else .wrChain (regNumber 4 a)

/-- The decoder: total on the 38-bit words (R103, R111). -/
def decode (t : Transaction) : Instr :=
  if weOf t then decodeWrite (addrOf t) (dataOf t) else decodeRead (addrOf t)

/-! ### From bytes -/

/-- Why a byte listing is no transaction. -/
inductive DecodeError where
  /-- a listing is 10 hexadecimal digits, five bytes (R100, R113) -/
  | wrongLength
  /-- the word is zero-extended to 40 bits, so bits 39:38 are 0 (R100) -/
  | paddingNotZero
deriving DecidableEq, Repr

/-- A transaction from its listing of five bytes, the most significant first (R100; log 11). -/
def decodeBytes : List Byte → Except DecodeError Instr
  | [p0, p1, p2, p3, p4] =>
    if p0.extractLsb' 6 2 = 0 then .ok (decode (p0.extractLsb' 0 6 ++ p1 ++ p2 ++ p3 ++ p4))
    else .error .paddingNotZero
  | _ => .error .wrongLength

/-- The listing of a transaction as bytes (R100). -/
def bytesOf (t : Transaction) : List Byte :=
  [(t.extractLsb' 32 6).setWidth 8, t.extractLsb' 24 8, t.extractLsb' 16 8, t.extractLsb' 8 8, t.extractLsb' 0 8]

/-! ### The encoder, from the encoding tables (R100, R104, R107, R108, R116) -/

/-- The first word address of a register group plus the register number. -/
def groupAddr (base : Nat) (j : Nat) : BitVec 5 := BitVec.ofNat 5 (base + j)

/-- A read, in its canonical encoding with DATA = 0 (R101). -/
def encodeRead (a : BitVec 5) : Transaction := transactionWord false a 0

/-- A command word `(len << 8) | opcode`, its reserved bits 0 (R104, R116). -/
def commandWord (op : BitVec 4) (len : Nat) : Word :=
  (0 : BitVec 20) ++ BitVec.ofNat 4 len ++ (0 : BitVec 4) ++ op

/-- A write of a command word to CMD (R116). -/
def encodeCommand (op : BitVec 4) (len : Nat) : Transaction := transactionWord true 1 (commandWord op len)

/-- The bit of DIR (R36). -/
def bitOfDirection : Direction → Bool
  | .encrypt => false
  | .decrypt => true

/-- The bit of MODE (R37). -/
def bitOfMode : ChainMode → Bool
  | .ecb => false
  | .cbc => true

/-- `zext_32(MODE ‖ DIR ‖ KSZ)` (R34). -/
def ctrlWord (ksz : BitVec 2) (dir : Direction) (mode : ChainMode) : Word :=
  (0 : BitVec 28) ++ BitVec.ofBool (bitOfMode mode) ++ BitVec.ofBool (bitOfDirection dir) ++ ksz

/-- The canonical word of an instruction; a write that ignores its value carries 0. -/
def encode : Instr → Transaction
  | .rdCtrl => encodeRead 0x00
  | .rdCmd => encodeRead 0x01
  | .rdStatus => encodeRead 0x02
  | .rdRkidx => encodeRead 0x03
  | .rdRkdata => encodeRead 0x04
  | .rdRsvd5 => encodeRead 0x05
  | .rdRsvd67 j => encodeRead (groupAddr 0x06 j)
  | .rdKey j => encodeRead (groupAddr 0x08 j)
  | .rdIv j => encodeRead (groupAddr 0x10 j)
  | .rdDin j => encodeRead (groupAddr 0x14 j)
  | .rdDout j => encodeRead (groupAddr 0x18 j)
  | .rdChain j => encodeRead (groupAddr 0x1C j)
  | .wrCtrl ksz dir mode => transactionWord true 0x00 (ctrlWord ksz dir mode)
  | .cmdNop => encodeCommand 0x0 0
  | .cmdKeyexp len => encodeCommand 0x1 len
  | .cmdLoadiv len => encodeCommand 0x2 len
  | .cmdBlock => encodeCommand 0x3 0
  | .cmdRsvd4 => encodeCommand 0x4 0
  | .cmdRsvd5 => encodeCommand 0x5 0
  | .cmdRsvd6 => encodeCommand 0x6 0
  | .cmdRsvd7 => encodeCommand 0x7 0
  | .cmdRsvd8 => encodeCommand 0x8 0
  | .cmdRsvd9 => encodeCommand 0x9 0
  | .cmdRsvdA => encodeCommand 0xA 0
  | .cmdRsvdB => encodeCommand 0xB 0
  | .cmdRsvdC => encodeCommand 0xC 0
  | .cmdRsvdD => encodeCommand 0xD 0
  | .cmdRsvdE => encodeCommand 0xE 0
  | .cmdClear => encodeCommand 0xF 0
  | .wrStatus => transactionWord true 0x02 0
  | .wrRkidx index => transactionWord true 0x03 (index.setWidth 32)
  | .wrRkdata => transactionWord true 0x04 0
  | .wrRsvd5 => transactionWord true 0x05 0
  | .wrRsvd67 j => transactionWord true (groupAddr 0x06 j) 0
  | .wrKey j v => transactionWord true (groupAddr 0x08 j) v
  | .wrIv j v => transactionWord true (groupAddr 0x10 j) v
  | .wrDin j v => transactionWord true (groupAddr 0x14 j) v
  | .wrDout j => transactionWord true (groupAddr 0x18 j) 0
  | .wrChain j => transactionWord true (groupAddr 0x1C j) 0

/-! ### The opcode table as data (R111, R118) -/

/-- A row of the opcode table: "A transaction T selects a row when `T & mask == match`" (R118). `row` is the row's
place in the table, from 0. -/
structure OpcodeRow where
  row : Nat
  pattern : Transaction
  mask : Transaction
deriving DecidableEq, Repr

/-- The 12 reads. -/
def opcodeReads : List OpcodeRow :=
  [⟨0, 0x0000000000, 0x3F00000000⟩, ⟨1, 0x0100000000, 0x3F00000000⟩, ⟨2, 0x0200000000, 0x3F00000000⟩,
   ⟨3, 0x0300000000, 0x3F00000000⟩, ⟨4, 0x0400000000, 0x3F00000000⟩, ⟨5, 0x0500000000, 0x3F00000000⟩,
   ⟨6, 0x0600000000, 0x3E00000000⟩, ⟨7, 0x0800000000, 0x3800000000⟩, ⟨8, 0x1000000000, 0x3C00000000⟩,
   ⟨9, 0x1400000000, 0x3C00000000⟩, ⟨10, 0x1800000000, 0x3C00000000⟩, ⟨11, 0x1C00000000, 0x3C00000000⟩]

/-- WR.CTRL and the 16 commands. -/
def opcodeCommands : List OpcodeRow :=
  [⟨12, 0x2000000000, 0x3F00000000⟩, ⟨13, 0x2100000000, 0x3F0000000F⟩, ⟨14, 0x2100000001, 0x3F0000000F⟩,
   ⟨15, 0x2100000002, 0x3F0000000F⟩, ⟨16, 0x2100000003, 0x3F0000000F⟩, ⟨17, 0x2100000004, 0x3F0000000F⟩,
   ⟨18, 0x2100000005, 0x3F0000000F⟩, ⟨19, 0x2100000006, 0x3F0000000F⟩, ⟨20, 0x2100000007, 0x3F0000000F⟩,
   ⟨21, 0x2100000008, 0x3F0000000F⟩, ⟨22, 0x2100000009, 0x3F0000000F⟩, ⟨23, 0x210000000A, 0x3F0000000F⟩,
   ⟨24, 0x210000000B, 0x3F0000000F⟩, ⟨25, 0x210000000C, 0x3F0000000F⟩, ⟨26, 0x210000000D, 0x3F0000000F⟩,
   ⟨27, 0x210000000E, 0x3F0000000F⟩, ⟨28, 0x210000000F, 0x3F0000000F⟩]

/-- The other 10 writes. -/
def opcodeWrites : List OpcodeRow :=
  [⟨29, 0x2200000000, 0x3F00000000⟩, ⟨30, 0x2300000000, 0x3F00000000⟩, ⟨31, 0x2400000000, 0x3F00000000⟩,
   ⟨32, 0x2500000000, 0x3F00000000⟩, ⟨33, 0x2600000000, 0x3E00000000⟩, ⟨34, 0x2800000000, 0x3800000000⟩,
   ⟨35, 0x3000000000, 0x3C00000000⟩, ⟨36, 0x3400000000, 0x3C00000000⟩, ⟨37, 0x3800000000, 0x3C00000000⟩,
   ⟨38, 0x3C00000000, 0x3C00000000⟩]

/-- The 39 rows of spec/opcode_table.json, in its order. -/
def opcodeTable : List OpcodeRow := opcodeReads ++ opcodeCommands ++ opcodeWrites

/-- The places of the rows a transaction selects (R118). -/
def selectedRows (t : Transaction) : List Nat :=
  (opcodeTable.filter fun r => t &&& r.mask = r.pattern).map OpcodeRow.row

/-- The place of an instruction's row in the table. -/
def Instr.row : Instr → Nat
  | .rdCtrl => 0
  | .rdCmd => 1
  | .rdStatus => 2
  | .rdRkidx => 3
  | .rdRkdata => 4
  | .rdRsvd5 => 5
  | .rdRsvd67 _ => 6
  | .rdKey _ => 7
  | .rdIv _ => 8
  | .rdDin _ => 9
  | .rdDout _ => 10
  | .rdChain _ => 11
  | .wrCtrl _ _ _ => 12
  | .cmdNop => 13
  | .cmdKeyexp _ => 14
  | .cmdLoadiv _ => 15
  | .cmdBlock => 16
  | .cmdRsvd4 => 17
  | .cmdRsvd5 => 18
  | .cmdRsvd6 => 19
  | .cmdRsvd7 => 20
  | .cmdRsvd8 => 21
  | .cmdRsvd9 => 22
  | .cmdRsvdA => 23
  | .cmdRsvdB => 24
  | .cmdRsvdC => 25
  | .cmdRsvdD => 26
  | .cmdRsvdE => 27
  | .cmdClear => 28
  | .wrStatus => 29
  | .wrRkidx _ => 30
  | .wrRkdata => 31
  | .wrRsvd5 => 32
  | .wrRsvd67 _ => 33
  | .wrKey _ _ => 34
  | .wrIv _ _ => 35
  | .wrDin _ _ => 36
  | .wrDout _ => 37
  | .wrChain _ => 38

/-! ### The host's entry points -/

/-- The transaction word of an instruction whose bits are `w`: the bits from `nbits` on are 0, and a value with a
bit above bit 37 is none (R100; log 11). -/
def tableTransaction (nbits w : Nat) : Option Transaction :=
  if w % 2 ^ nbits < 2 ^ 38 then some (BitVec.ofNat 38 (w % 2 ^ nbits)) else none

/-- The instruction the decoder reads from a word numbered as spec/opcode_table.json numbers it (R118). -/
def decodeTableWord (nbits w : Nat) : Option Instr := (tableTransaction nbits w).map decode

end Sys2Proof
end

