-- ==== Sys2Proof/Machine/State.lean ====
section
/-! DEFINITION. The state of AESCORE: everything 10_state gives the machine (R30 to R61), the port (20_memory R71), and
two fields of the model's own (inputs, draws). Plain data. -/

namespace Sys2Proof.Machine

/-- CTRL, by its fields (R34 to R37). -/
structure Ctrl where
  /-- KSZ; all four values are stored as written (R35, R38) -/
  ksz : BitVec 2
  dir : Direction
  mode : ChainMode
deriving DecidableEq, Repr

/-- The error codes of R361, held in STATUS.ERRCODE. Codes 9 to 15 "are never written", so they have no name. -/
inductive ErrorCode where
  /-- 0 -/
  | none
  /-- 1, fatal, raised by KEYEXP -/
  | keyLength
  /-- 2, fatal, raised by LOADIV -/
  | ivLength
  /-- 3, fatal, raised by BLOCK -/
  | noKey
  /-- 4, fatal, raised by BLOCK -/
  | noIv
  /-- 5, fatal, raised by KEYEXP -/
  | keySize
  /-- 6, raised by a reserved opcode -/
  | illegalCmd
  /-- 7, raised by a second KEYEXP or LOADIV -/
  | sequence
  /-- 8, recorded for a write while BUSY = 1 (R411) -/
  | busyAccess
deriving DecidableEq, Repr

/-- The sequencer's phase (R61). -/
inductive Phase where
  | idle
  | expand
  | cipher
  | invCipher
deriving DecidableEq, Repr

/-- What the outside world does at the port, between steps (R71, R73, R400; log 1, 10). -/
inductive HostEvent where
  /-- the host performs a transaction -/
  | transaction (t : Transaction)
  /-- `rst` is asserted and deasserted -/
  | reset
deriving DecidableEq, Repr

/-- The state. -/
structure State where
  /-- CTRL (R34) -/
  ctrl : Ctrl
  /-- STATUS.KEY_VALID (R42) -/
  keyValid : Bool
  /-- STATUS.IV_VALID (R43) -/
  ivValid : Bool
  /-- STATUS.OUT_VALID (R44) -/
  outValid : Bool
  /-- STATUS.FAULT (R45) -/
  fault : Bool
  /-- STATUS.BUSY (R46) -/
  busy : Bool
  /-- STATUS.ERRCODE (R47) -/
  errCode : ErrorCode
  /-- RKIDX.INDEX (R50) -/
  rkidx : BitVec 6
  /-- KEY0 to KEY7 (R52) -/
  key : Vector Word 8
  /-- IV0 to IV3 (R53) -/
  iv : Vector Word 4
  /-- DIN0 to DIN3 (R54) -/
  din : Vector Word 4
  /-- DOUT0 to DOUT3 (R55) -/
  dout : Vector Word 4
  /-- the key-schedule store W (R57) -/
  w : Vector AesWord 60
  /-- the chaining register CHAIN, viewed as CHAIN0 to CHAIN3 (R56, R59) -/
  chain : Block
  /-- the sequencer's phase (R61) -/
  phase : Phase
  /-- S, CAP, the counters and the MixColumns snapshot (R58, R60, R61) -/
  dp : Config.Datapath
  /-- the read data of the transaction just performed: "A read returns 32 bits", a write "returns nothing" (R71) -/
  rdata : Option Word
  /-- the model's own: what the host has yet to do, oldest first (R73; log 1) -/
  inputs : List HostEvent
  /-- the model's own: how many free values have been drawn (log 7) -/
  draws : Nat
deriving DecidableEq, Repr

/-- Why the machine could stop with a fault: it has no such reason. "AESCORE has no traps" (R369) and every error is
a STATUS update (R363, R364), so no constructor stands here and none is raised by anyone. -/
inductive Fault where
deriving DecidableEq, Repr

/-- Why an instruction could have no meaning. -/
inductive Refusal where
  /-- Raised by an arm of exec whose instruction has no meaning yet; safe. No arm of this model raises it. -/
  | notModelled (mnemonic : String)
deriving DecidableEq, Repr

/-- What a step answers. -/
abbrev Result := Host.Outcome State Fault Refusal

/-- S, CAP, the snapshot and the counters of the reset state: unspecified (R64), all zero here
(DESIGN CHOICE, unsafe; log 5). -/
def resetDatapath : Config.Datapath := ⟨Block.zero, Block.zero, Block.zero, 0, 0, 0⟩

/-- The machine right after reset (R64, R400, R402). The contents of W are unspecified there and all zero here
(DESIGN CHOICE, unsafe; log 4). -/
def State.reset : State where
  ctrl := ⟨0, .encrypt, .ecb⟩
  keyValid := false
  ivValid := false
  outValid := false
  fault := false
  busy := false
  errCode := .none
  rkidx := 0
  key := Vector.replicate 8 0
  iv := Vector.replicate 4 0
  din := Vector.replicate 4 0
  dout := Vector.replicate 4 0
  w := Vector.replicate 60 AesWord.zero
  chain := Block.zero
  phase := .idle
  dp := resetDatapath
  rdata := none
  inputs := []
  draws := 0

end Sys2Proof.Machine
end

