-- ==== Sys2Proof/Machine/Operands.lean ====
section
/-! DEFINITION. Operand forms: the key-size parameters, and how a command reads its operand registers
(00_scope R9 R10, 10_state R35, 30_encoding R106 to R109). -/

namespace Sys2Proof.Machine

/-- Nk of CTRL.KSZ; none, read as 0, for KSZ = 3 (R35, R48). -/
def nkOf (ksz : BitVec 2) : Nat :=
  match ksz.toNat with
  | 0 => 4
  | 1 => 6
  | 2 => 8
  | _ => 0

/-- Nr of CTRL.KSZ, "6 + Nk" (R9, R35); none, read as 0, for KSZ = 3 (R48; log 13). -/
def nrOf (ksz : BitVec 2) : Nat :=
  match ksz.toNat with
  | 0 => 10
  | 1 => 12
  | 2 => 14
  | _ => 0

/-- NW, "44, 52 or 60 words for Nk = 4, 6 or 8" (R10); there is no schedule for KSZ = 3 (log 13). -/
def nwOf (ksz : BitVec 2) : Nat :=
  match ksz.toNat with
  | 0 => 44
  | 1 => 52
  | 2 => 60
  | _ => 0

/-- The key words, `K[j] <- unpack(x[KEYj])` (R220, R109). -/
def keyOperand (s : State) : Vector AesWord 8 := s.key.map unpack

/-- The IV as a block: `CHAIN column j <- unpack(x[IVj])` (R267, R109). -/
def ivOperand (s : State) : Block := blockOfRegs s.iv

/-- The input block: `X column j <- unpack(x[DINj])` (R270, R109). -/
def dinOperand (s : State) : Block := blockOfRegs s.din

/-- RKDATA: "`pack(W[INDEX])` when STATUS.KEY_VALID = 1 and INDEX < NW; in every other case it is 0x00000000"
(R51, R306). -/
def rkdataValue (s : State) : Word :=
  if s.keyValid ∧ s.rkidx.toNat < nwOf s.ctrl.ksz then pack (scheduleWord s.w s.rkidx.toNat) else 0

/-- CHAINj, `pack(CHAIN column j)` (R56, R318). -/
def chainValue (s : State) (j : Fin 4) : Word := pack (s.chain.col j)

end Sys2Proof.Machine
end

