-- ==== Sys2Proof/Machine/Flags.lean ====
section
/-! DEFINITION. STATUS: the code of each error, the word a read returns, and what is cleared when a run starts
(10_state R41 to R49, 60_exceptions R361). AESCORE has no other flags and no condition codes (R49). -/

namespace Sys2Proof.Machine

/-- The code of an error (R361). -/
def ErrorCode.code : ErrorCode → BitVec 4
  | .none => 0
  | .keyLength => 1
  | .ivLength => 2
  | .noKey => 3
  | .noIv => 4
  | .keySize => 5
  | .illegalCmd => 6
  | .sequence => 7
  | .busyAccess => 8

/-- "Codes 1 to 5 are fatal and codes 6 to 8 non-fatal" (R361). -/
def ErrorCode.isFatal : ErrorCode → Bool
  | .keyLength | .ivLength | .noKey | .noIv | .keySize => true
  | .none | .illegalCmd | .sequence | .busyAccess => false

/-- STATUS.NK, computed from the current CTRL.KSZ (R48). -/
def statusNk (ksz : BitVec 2) : BitVec 4 := BitVec.ofNat 4 (nkOf ksz)

/-- STATUS.NR, computed from the current CTRL.KSZ (R48). -/
def statusNr (ksz : BitVec 2) : BitVec 4 := BitVec.ofNat 4 (nrOf ksz)

/-- `zext_32(NK ‖ NR ‖ 0b0000 ‖ ERRCODE ‖ 0b000 ‖ BUSY ‖ FAULT ‖ OUT_VALID ‖ IV_VALID ‖ KEY_VALID)` (R41). -/
def statusWord (s : State) : Word :=
  (0 : BitVec 8) ++ statusNk s.ctrl.ksz ++ statusNr s.ctrl.ksz ++ (0 : BitVec 4) ++ s.errCode.code ++ (0 : BitVec 3)
    ++ BitVec.ofBool s.busy ++ BitVec.ofBool s.fault ++ BitVec.ofBool s.outValid ++ BitVec.ofBool s.ivValid
    ++ BitVec.ofBool s.keyValid

/-- `KEY_VALID <- 0; IV_VALID <- 0; OUT_VALID <- 0; FAULT <- 0; ERRCODE <- 0` (R261). -/
def clearRunFlags (s : State) : State :=
  { s with keyValid := false, ivValid := false, outValid := false, fault := false, errCode := .none }

end Sys2Proof.Machine
end

