-- ==== Sys2Proof/Machine/Ops.lean ====
section
/-! DEFINITION. The named operations over the state that the meanings share: answering a read, writing a register,
raising an error, starting a run, clearing, and the datapath's register transfers. -/

namespace Sys2Proof.Machine

/-! ### Reads and register writes -/

/-- A read returns v and has no other effect (R71, R78). -/
def respond (v : Word) (s : State) : State := { s with rdata := some v }

/-- `x[KEYj] <- v` (R311). -/
def writeKey (j : Fin 8) (v : Word) (s : State) : State := { s with key := s.key.set j v }

/-- `x[IVj] <- v` (R313). -/
def writeIv (j : Fin 4) (v : Word) (s : State) : State := { s with iv := s.iv.set j v }

/-- `x[DINj] <- v` (R315). -/
def writeDin (j : Fin 4) (v : Word) (s : State) : State := { s with din := s.din.set j v }

/-- `RKIDX.INDEX <- v[5:0]` (R305). -/
def writeRkidx (index : BitVec 6) (s : State) : State := { s with rkidx := index }

/-! ### Errors: what stands in the place of exceptions (R369) -/

/-- `raise Fatal(code)`: the entry into the fatal state (R363). -/
def raiseFatal (code : ErrorCode) (s : State) : State :=
  { s with fault := true, errCode := code, outValid := false, dout := zeroRegs }

/-- `raise Error(code)`: `if FAULT = 0 then ERRCODE <- code` (R364). -/
def raiseError (code : ErrorCode) (s : State) : State :=
  if s.fault then s else { s with errCode := code }

/-! ### Starting a run: what stands in the place of a return from an exception (R366) -/

/-- A CTRL write: the new configuration, the run's flags cleared, DOUT and CHAIN zero (R261). -/
def startRun (c : Ctrl) (s : State) : State :=
  { clearRunFlags s with ctrl := c, dout := zeroRegs, chain := Block.zero }

/-- Every piece of state takes its reset value (R64, R274, R401). W, S, CAP and the counters become unspecified: free
values (log 6). What the host has yet to do and the read data of the port are not AESCORE's to clear (log 1, 2). -/
def clearAll (s : State) : State :=
  { State.reset with
    w := Config.freeSchedule s.draws
    dp := Config.freeDatapath s.draws
    rdata := s.rdata
    inputs := s.inputs
    draws := s.draws + 1 }

/-! ### The datapath -/

/-- A command that used the datapath ends: the phase is IDLE, and S, CAP, the counters and the snapshot are
unspecified again (R58, R60, R61): a free value (log 6). -/
def releaseDatapath (s : State) : State :=
  { s with phase := .idle, dp := Config.freeDatapath s.draws, draws := s.draws + 1 }

/-- `S <- X`, X being DIN (R240, R270). -/
def loadS (s : State) : State := { s with dp := { s.dp with s := dinOperand s } }

/-- `S <- S ^ CHAIN` (R271, R273). -/
def xorChain (s : State) : State := { s with dp := { s.dp with s := s.dp.s.xor s.chain } }

/-- `CAP <- X`, X being in S (R60, R273). -/
def captureInput (s : State) : State := { s with dp := { s.dp with cap := s.dp.s } }

/-- `CHAIN <- Y`, Y being in S (R271). -/
def chainFromS (s : State) : State := { s with chain := s.dp.s }

/-- `CHAIN <- CAP` (R273). -/
def chainFromCap (s : State) : State := { s with chain := s.dp.cap }

/-- `x[DOUTj] <- pack(Y column j)`, Y being in S, and `OUT_VALID <- 1` (R270). -/
def storeOutput (s : State) : State := { s with dout := regsOfBlock s.dp.s, outValid := true }

end Sys2Proof.Machine
end

