-- ==== Sys2Proof/Machine/Sequencer.lean ====
section
/-! DEFINITION. The sequencer inside a command (10_state R61): its phase and counters drive the key expander one
schedule word at a time and the round pipelines one round at a time, over S, W and the snapshot. A command runs all
of it within its one atomic step (20_memory R72), so the host sees none of it. -/

namespace Sys2Proof.Machine

open Config (Datapath)

/-! ### The key expander (Listing KX-1) -/

/-- The word t at index i, the round constant being RCON[j], "the next value from the round-constant sequence"
(R215). -/
def expandTemp (nk i j : Nat) (prev : AesWord) : AesWord :=
  if i % nk = 0 then addRcon j (subWord (rotWord prev))
  else if nk = 8 ∧ i % nk = 4 then subWord prev
  else prev

/-- The word `W[i-Nk] ^ t` at the counters of the datapath. -/
def expandedWord (nk : Nat) (w : Vector AesWord 60) (d : Datapath) : AesWord :=
  (scheduleWord w (d.wordIndex.val - nk)).xor
    (expandTemp nk d.wordIndex.val d.rconIndex.val (scheduleWord w (d.wordIndex.val - 1)))

/-- The counters after a word: i goes up by 1, and a core step consumes a round constant. -/
def expandCounters (nk : Nat) (d : Datapath) : Datapath :=
  { d with
    wordIndex := Fin.ofNat 60 (d.wordIndex.val + 1)
    rconIndex := if d.wordIndex.val % nk = 0 then Fin.ofNat 12 (d.rconIndex.val + 1) else d.rconIndex }

/-- One word of the second loop of Listing KX-1, on W and the datapath. -/
def expandAdvance (nk : Nat) (x : Vector AesWord 60 × Datapath) : Vector AesWord 60 × Datapath :=
  (x.1.setIfInBounds x.2.wordIndex.val (expandedWord nk x.1 x.2), expandCounters nk x.2)

/-- W after the first loop of Listing KX-1, `W[i] <- K[i]`, and the counters at the first computed word, `i = Nk`, with
the first round constant, `j = 1` (R214, R146). -/
def startExpand (s : State) : Vector AesWord 60 × Datapath :=
  (copyKeyWords (keyOperand s) (nkOf s.ctrl.ksz) s.w,
   { s.dp with wordIndex := Fin.ofNat 60 (nkOf s.ctrl.ksz), rconIndex := 1 })

/-- W and the datapath after all words. -/
def expanded (s : State) : Vector AesWord 60 × Datapath :=
  (expandAdvance (nkOf s.ctrl.ksz))^[nwOf s.ctrl.ksz - nkOf s.ctrl.ksz] (startExpand s)

/-- `W[0..NW−1] <- KeyExpansion(K, Nk)` (R220). -/
def runKeyExpansion (s : State) : State :=
  { s with phase := .expand, w := (expanded s).1, dp := (expanded s).2 }

/-! ### The forward round pipeline (Listing BC-1) -/

/-- The step of Cipher at the round counter: AddRoundKey(0) at 0, a full round through the MixColumns snapshot below
Nr, the final round at Nr (R241 to R243). -/
def cipherAdvance (w : Vector AesWord 60) (nr : Nat) (d : Datapath) : Datapath :=
  if d.round.val = 0 then { d with s := addRoundKey w 0 d.s, round := 1 }
  else if d.round.val < nr then
    { d with
      snapshot := shiftRows (subBytes d.s)
      s := addRoundKey w d.round.val (mixColumns (shiftRows (subBytes d.s)))
      round := Fin.ofNat 15 (d.round.val + 1) }
  else { d with s := finalRound w nr d.s }

/-- `S <- Cipher(S, W, Nr)`, Nr being that of CTRL.KSZ (R241, R247). -/
def runCipher (s : State) : State :=
  { s with
    phase := .cipher
    dp := (cipherAdvance s.w (nrOf s.ctrl.ksz))^[nrOf s.ctrl.ksz + 1] { s.dp with round := 0 } }

/-! ### The inverse round pipeline (Listing BC-2) -/

/-- The step of InvCipher at the round counter: AddRoundKey(Nr) at Nr, a full round through the snapshot below it,
the final steps at 0 (R244, R245). -/
def invCipherAdvance (w : Vector AesWord 60) (nr : Nat) (d : Datapath) : Datapath :=
  if d.round.val = nr then
    { d with s := addRoundKey w nr d.s, round := Fin.ofNat 15 (nr - 1) }
  else if d.round.val ≠ 0 then
    { d with
      snapshot := addRoundKey w d.round.val (invSubBytes (invShiftRows d.s))
      s := invMixColumns (addRoundKey w d.round.val (invSubBytes (invShiftRows d.s)))
      round := Fin.ofNat 15 (d.round.val - 1) }
  else { d with s := addRoundKey w 0 (invSubBytes (invShiftRows d.s)) }

/-- `S <- InvCipher(S, W, Nr)`, Nr being that of CTRL.KSZ (R244, R247). -/
def runInvCipher (s : State) : State :=
  { s with
    phase := .invCipher
    dp := (invCipherAdvance s.w (nrOf s.ctrl.ksz))^[nrOf s.ctrl.ksz + 1]
      { s.dp with round := Fin.ofNat 15 (nrOf s.ctrl.ksz) } }

end Sys2Proof.Machine
end

