-- ==== Sys2Proof/Machine/Commands.lean ====
section
/-! DEFINITION. The meanings of the 16 commands: KEYEXP (43_key_expansion R220), and NOP, LOADIV, BLOCK, CLEAR and the
reserved opcodes (45_mode_sequencer R262 to R274). Each is one atomic step (R263); its checks are made in the order of
60_exceptions R367, and the first that applies wins. -/

namespace Sys2Proof.Machine

/-- CMD.NOP: skip, even while FAULT = 1 (R264). -/
def execCmdNop (s : State) : Result := .next s

/-- CMD.KEYEXP, Listing KX-2 (R220). -/
def execCmdKeyexp (len : Nat) (s : State) : Result :=
  if s.fault then .next s
  else if s.keyValid then .next (raiseError .sequence s)
  else if s.ctrl.ksz = 3 then .next (raiseFatal .keySize s)
  else if len ≠ nkOf s.ctrl.ksz then .next (raiseFatal .keyLength s)
  else .next (releaseDatapath { runKeyExpansion s with keyValid := true })

/-- CMD.LOADIV, Listing SEQ-2 (R267). -/
def execCmdLoadiv (len : Nat) (s : State) : Result :=
  if s.fault then .next s
  else if s.ctrl.mode = .ecb then .next s
  else if s.ivValid then .next (raiseError .sequence s)
  else if len ≠ 4 then .next (raiseFatal .ivLength s)
  else .next { s with chain := ivOperand s, ivValid := true }

/-- The encryption path of Listing SEQ-3: in CBC, XOR with CHAIN before Cipher and CHAIN from the result after it
(R271, R414 (c)); in ECB neither (R272). -/
def blockEncrypt (s : State) : State :=
  match s.ctrl.mode with
  | .ecb => runCipher (loadS s)
  | .cbc => chainFromS (runCipher (xorChain (loadS s)))

/-- The decryption path of Listing SEQ-3: the input is captured before InvCipher; in CBC the result is XORed with the
old CHAIN and CHAIN is updated from CAP only after it (R273, R414 (b)); in ECB neither (R272). -/
def blockDecrypt (s : State) : State :=
  match s.ctrl.mode with
  | .ecb => runInvCipher (captureInput (loadS s))
  | .cbc => chainFromCap (xorChain (runInvCipher (captureInput (loadS s))))

/-- The path BLOCK takes (R268). -/
def blockPath (s : State) : State :=
  match s.ctrl.dir with
  | .encrypt => blockEncrypt s
  | .decrypt => blockDecrypt s

/-- CMD.BLOCK, Listing SEQ-3 (R269, R270). -/
def execCmdBlock (s : State) : Result :=
  if s.fault then .next s
  else if !s.keyValid then .next (raiseFatal .noKey s)
  else if s.ctrl.mode = .cbc ∧ !s.ivValid then .next (raiseFatal .noIv s)
  else .next (releaseDatapath (storeOutput (blockPath s)))

/-- A reserved opcode: `if FAULT = 0 then raise Error(ILLEGAL_CMD)`; "Each of the 11 values behaves identically"
(R265). -/
def reservedCommand (s : State) : Result := .next (raiseError .illegalCmd s)

/-- CMD.RSVD4 (R265). -/
def execCmdRsvd4 (s : State) : Result := reservedCommand s

/-- CMD.RSVD5 (R265). -/
def execCmdRsvd5 (s : State) : Result := reservedCommand s

/-- CMD.RSVD6 (R265). -/
def execCmdRsvd6 (s : State) : Result := reservedCommand s

/-- CMD.RSVD7 (R265). -/
def execCmdRsvd7 (s : State) : Result := reservedCommand s

/-- CMD.RSVD8 (R265). -/
def execCmdRsvd8 (s : State) : Result := reservedCommand s

/-- CMD.RSVD9 (R265). -/
def execCmdRsvd9 (s : State) : Result := reservedCommand s

/-- CMD.RSVDA (R265). -/
def execCmdRsvdA (s : State) : Result := reservedCommand s

/-- CMD.RSVDB (R265). -/
def execCmdRsvdB (s : State) : Result := reservedCommand s

/-- CMD.RSVDC (R265). -/
def execCmdRsvdC (s : State) : Result := reservedCommand s

/-- CMD.RSVDD (R265). -/
def execCmdRsvdD (s : State) : Result := reservedCommand s

/-- CMD.RSVDE (R265). -/
def execCmdRsvdE (s : State) : Result := reservedCommand s

/-- CMD.CLEAR, the soft reset; it acts even while FAULT = 1 (R274). -/
def execCmdClear (s : State) : Result := .next (clearAll s)

end Sys2Proof.Machine
end

