-- ==== Sys2Proof/Machine/RegisterReads.lean ====
section
/-! DEFINITION. The meanings of the 12 reads (46_register_access R300 to R318). A read returns a value and has no side
effect, raises no error and is performed in the fatal state too (R320, R365). -/

namespace Sys2Proof.Machine

/-- RD.CTRL: `zext_32(CTRL.MODE ‖ CTRL.DIR ‖ CTRL.KSZ)` (R300). -/
def execRdCtrl (s : State) : Result := .next (respond (ctrlWord s.ctrl.ksz s.ctrl.dir s.ctrl.mode) s)

/-- RD.CMD reads 0 (R301). -/
def execRdCmd (s : State) : Result := .next (respond 0 s)

/-- RD.STATUS (R302). -/
def execRdStatus (s : State) : Result := .next (respond (statusWord s) s)

/-- RD.RKIDX: `zext_32(RKIDX.INDEX)` (R304). -/
def execRdRkidx (s : State) : Result := .next (respond (s.rkidx.setWidth 32) s)

/-- RD.RKDATA (R306). -/
def execRdRkdata (s : State) : Result := .next (respond (rkdataValue s) s)

/-- RD.RSVD5 reads 0 (R308). -/
def execRdRsvd5 (s : State) : Result := .next (respond 0 s)

/-- RD.RSVD67 reads 0 at both addresses (R308). -/
def execRdRsvd67 (_j : Fin 2) (s : State) : Result := .next (respond 0 s)

/-- RD.KEY: `x[KEYj]` (R310). -/
def execRdKey (j : Fin 8) (s : State) : Result := .next (respond s.key[j] s)

/-- RD.IV: `x[IVj]` (R312). -/
def execRdIv (j : Fin 4) (s : State) : Result := .next (respond s.iv[j] s)

/-- RD.DIN: `x[DINj]` (R314). -/
def execRdDin (j : Fin 4) (s : State) : Result := .next (respond s.din[j] s)

/-- RD.DOUT: `x[DOUTj]`; OUT_VALID is not cleared (R316). -/
def execRdDout (j : Fin 4) (s : State) : Result := .next (respond s.dout[j] s)

/-- RD.CHAIN: `pack(CHAIN column j)` (R318). -/
def execRdChain (j : Fin 4) (s : State) : Result := .next (respond (chainValue s j) s)

end Sys2Proof.Machine
end

