-- ==== Sys2Proof/Machine/RegisterWrites.lean ====
section
/-! DEFINITION. The meanings of the 11 register writes: WR.CTRL (45_mode_sequencer R261) and those of
46_register_access (R303 to R319). A write to a read-only or reserved address is ignored and sets no error
(R79, R80); the data registers can be written at any time, in the fatal state too (R320, R365). -/

namespace Sys2Proof.Machine

/-- WR.CTRL sets the run configuration and starts a new run; every value is accepted (R261). -/
def execWrCtrl (ksz : BitVec 2) (dir : Direction) (mode : ChainMode) (s : State) : Result :=
  .next (startRun ⟨ksz, dir, mode⟩ s)

/-- WR.STATUS: skip (R303). -/
def execWrStatus (s : State) : Result := .next s

/-- WR.RKIDX (R305). -/
def execWrRkidx (index : BitVec 6) (s : State) : Result := .next (writeRkidx index s)

/-- WR.RKDATA: skip (R307). -/
def execWrRkdata (s : State) : Result := .next s

/-- WR.RSVD5: skip (R309). -/
def execWrRsvd5 (s : State) : Result := .next s

/-- WR.RSVD67: skip (R309). -/
def execWrRsvd67 (_j : Fin 2) (s : State) : Result := .next s

/-- WR.KEY (R311). -/
def execWrKey (j : Fin 8) (v : Word) (s : State) : Result := .next (writeKey j v s)

/-- WR.IV (R313). -/
def execWrIv (j : Fin 4) (v : Word) (s : State) : Result := .next (writeIv j v s)

/-- WR.DIN (R315). -/
def execWrDin (j : Fin 4) (v : Word) (s : State) : Result := .next (writeDin j v s)

/-- WR.DOUT: skip (R317). -/
def execWrDout (_j : Fin 4) (s : State) : Result := .next s

/-- WR.CHAIN: skip (R319). -/
def execWrChain (_j : Fin 4) (s : State) : Result := .next s

end Sys2Proof.Machine
end

