-- ==== Sys2Proof/Machine/Dispatch.lean ====
section
/-! DEFINITION. One arm per instruction: the meaning it calls (30_encoding R111, 45_mode_sequencer Listing SEQ-1). -/

namespace Sys2Proof.Machine

def exec (i : Instr) (s : State) : Host.Outcome State Fault Refusal :=
  match i with
  | .rdCtrl => Sys2Proof.Machine.execRdCtrl s
  | .rdCmd => Sys2Proof.Machine.execRdCmd s
  | .rdStatus => Sys2Proof.Machine.execRdStatus s
  | .rdRkidx => Sys2Proof.Machine.execRdRkidx s
  | .rdRkdata => Sys2Proof.Machine.execRdRkdata s
  | .rdRsvd5 => Sys2Proof.Machine.execRdRsvd5 s
  | .rdRsvd67 j => Sys2Proof.Machine.execRdRsvd67 j s
  | .rdKey j => Sys2Proof.Machine.execRdKey j s
  | .rdIv j => Sys2Proof.Machine.execRdIv j s
  | .rdDin j => Sys2Proof.Machine.execRdDin j s
  | .rdDout j => Sys2Proof.Machine.execRdDout j s
  | .rdChain j => Sys2Proof.Machine.execRdChain j s
  | .wrCtrl ksz dir mode => Sys2Proof.Machine.execWrCtrl ksz dir mode s
  | .cmdNop => Sys2Proof.Machine.execCmdNop s
  | .cmdKeyexp len => Sys2Proof.Machine.execCmdKeyexp len s
  | .cmdLoadiv len => Sys2Proof.Machine.execCmdLoadiv len s
  | .cmdBlock => Sys2Proof.Machine.execCmdBlock s
  | .cmdRsvd4 => Sys2Proof.Machine.execCmdRsvd4 s
  | .cmdRsvd5 => Sys2Proof.Machine.execCmdRsvd5 s
  | .cmdRsvd6 => Sys2Proof.Machine.execCmdRsvd6 s
  | .cmdRsvd7 => Sys2Proof.Machine.execCmdRsvd7 s
  | .cmdRsvd8 => Sys2Proof.Machine.execCmdRsvd8 s
  | .cmdRsvd9 => Sys2Proof.Machine.execCmdRsvd9 s
  | .cmdRsvdA => Sys2Proof.Machine.execCmdRsvdA s
  | .cmdRsvdB => Sys2Proof.Machine.execCmdRsvdB s
  | .cmdRsvdC => Sys2Proof.Machine.execCmdRsvdC s
  | .cmdRsvdD => Sys2Proof.Machine.execCmdRsvdD s
  | .cmdRsvdE => Sys2Proof.Machine.execCmdRsvdE s
  | .cmdClear => Sys2Proof.Machine.execCmdClear s
  | .wrStatus => Sys2Proof.Machine.execWrStatus s
  | .wrRkidx index => Sys2Proof.Machine.execWrRkidx index s
  | .wrRkdata => Sys2Proof.Machine.execWrRkdata s
  | .wrRsvd5 => Sys2Proof.Machine.execWrRsvd5 s
  | .wrRsvd67 j => Sys2Proof.Machine.execWrRsvd67 j s
  | .wrKey j v => Sys2Proof.Machine.execWrKey j v s
  | .wrIv j v => Sys2Proof.Machine.execWrIv j v s
  | .wrDin j v => Sys2Proof.Machine.execWrDin j v s
  | .wrDout j => Sys2Proof.Machine.execWrDout j s
  | .wrChain j => Sys2Proof.Machine.execWrChain j s

end Sys2Proof.Machine
end

