-- ==== Sys2Proof/Machine/Port.lean ====
section
/-! DEFINITION. The register port (20_memory R71 to R73): what performing one transaction does around the meaning of
its row, what a transaction does while BUSY = 1 (70_reset_and_hazards R411), and the reset input (R400). -/

namespace Sys2Proof.Machine

/-- A transaction that is not a STATUS read, received while BUSY = 1: a write is ignored and BUSY_ACCESS recorded if
FAULT = 0; a read returns an unspecified value, a free value, with no other effect (R411; log 8, 9). -/
def busyAccess (t : Transaction) (s : State) : State :=
  if weOf t then raiseError .busyAccess s
  else { respond (Config.freeReadData s.draws) s with draws := s.draws + 1 }

/-- One transaction. The port's read data is that of this transaction alone, so it is none until a read answers. A
transaction other than a STATUS read while BUSY = 1 is R411's; every other is performed (R72, R82). -/
def transact (t : Transaction) (s : State) : Result :=
  let s := { s with rdata := none }
  if s.busy ∧ decode t ≠ .rdStatus then .next (busyAccess t s)
  else exec (decode t) s

/-- The reset input asserted and deasserted between transactions (R400): the effect of CLEAR (R401), and the port
holds no read data. -/
def resetInput (s : State) : State := { clearAll s with rdata := none }

/-- The state after a transaction. (Every transaction has a next state; the other cases keep the state.) -/
def perform (t : Transaction) (s : State) : State :=
  match transact t s with
  | .next s' => s'
  | .fault _ => s
  | .refused _ => s

/-- The next thing the host does (R31, R73): nothing if it does nothing (log 3). -/
def portStep (s : State) : Result :=
  match s.inputs with
  | [] => .next s
  | .transaction t :: rest => transact t { s with inputs := rest }
  | .reset :: rest => .next (resetInput { s with inputs := rest })

/-- The state whose next input is the transaction t, and whose port is ready for it: the host issues no transaction
while BUSY = 1 (R410). -/
def offer (t : Transaction) (s : State) : State :=
  { s with busy := false, inputs := .transaction t :: s.inputs }

end Sys2Proof.Machine
end

