-- ==== Sys2Proof/Machine/Step.lean ====
section
/-! DEFINITION. The step: the oldest thing the host has yet to do is done (20_memory R72, R73). AESCORE has no program
counter and fetches nothing (10_state R31); the transactions stand in State.inputs (log 1). -/

namespace Sys2Proof.Machine

/-- One step of the machine. -/
def step (s : State) : Host.Outcome State Fault Refusal := portStep s

/-- The state s with the transaction of a table word as the next input, so that the very next step performs it; a word
that is no transaction leaves s as it is (log 1, 11). -/
def State.withFetchWord (s : State) (nbits w : Nat) : State :=
  match tableTransaction nbits w with
  | some t => offer t s
  | none => s

end Sys2Proof.Machine
end

