-- ==== Sys2Proof/Machine/Adapter.lean ====
section
/-! DEFINITION. The host text adapter of 47_host_text_adapter (R330 to R343, Listing ADP-1): a host program outside the
core, composed with the core's transactions. Its policies are arguments (R338, R339; log 18). Text is a list of bytes
(R330). -/

namespace Sys2Proof.Machine.Adapter

/-- A line, without its LF (R330). -/
abbrev Line := List Byte

/-! ### Lines and characters -/

/-- Splits at each LF; a final non-empty segment is a line, a final empty one is not (R330). `seg` is the segment so
far, the last byte first. -/
def splitFrom : List Byte → Line → List Line
  | [], seg => if seg.isEmpty then [] else [seg.reverse]
  | b :: bs, seg => if b = 0x0A then seg.reverse :: splitFrom bs [] else splitFrom bs (b :: seg)

/-- The lines of the input (R330). -/
def splitLines (input : List Byte) : List Line := splitFrom input []

/-- `0`-`9`. -/
def isDigit (b : Byte) : Bool := 0x30 ≤ b.toNat && b.toNat ≤ 0x39

/-- `A`-`F`. -/
def isUpper (b : Byte) : Bool := 0x41 ≤ b.toNat && b.toNat ≤ 0x46

/-- `a`-`f`. -/
def isLower (b : Byte) : Bool := 0x61 ≤ b.toNat && b.toNat ≤ 0x66

/-- A character of a block line: `[0-9A-F]` (R331). -/
def isBlockChar (b : Byte) : Bool := isDigit b || isUpper b

/-- A character of the key line or the IV line: `[0-9A-Fa-f]` (R331). -/
def isKeyChar (b : Byte) : Bool := isBlockChar b || isLower b

/-- "A hexadecimal digit denotes its 4-bit value" (R331). -/
def digitValue (b : Byte) : Nat :=
  if isDigit b then b.toNat - 0x30 else if isUpper b then b.toNat - 0x37 else b.toNat - 0x57

/-- The value of a group of digits, the first the most significant. -/
def groupWord (l : Line) : Word := l.foldl (fun acc b => (acc <<< 4) ||| BitVec.ofNat 32 (digitValue b)) 0

/-- 8-digit group j of a line, the value of register j (R77, R333). -/
def group (l : Line) (j : Nat) : Word := groupWord ((l.drop (8 * j)).take 8)

/-- The uppercase hexadecimal digit of a value (R340). -/
def hexDigit (d : BitVec 4) : Byte :=
  if d.toNat < 10 then BitVec.ofNat 8 (0x30 + d.toNat) else BitVec.ofNat 8 (0x37 + d.toNat)

/-- The 8-digit uppercase spelling of a register (R340). -/
def hex8 (v : Word) : List Byte := (List.range 8).map fun k => hexDigit (v.extractLsb' (4 * (7 - k)) 4)

/-! ### Configuration -/

/-- (keysize, direction, mode), with the defaults encrypt and ECB (R332). -/
structure AdapterConfig where
  keysize : Nat
  dir : Direction := .encrypt
  mode : ChainMode := .ecb
deriving DecidableEq, Repr

/-- The two named parameters of the adapter (R338, R339). -/
structure Policies where
  longLine : Config.LongLinePolicy
  emptyLine : Config.EmptyLinePolicy
deriving DecidableEq, Repr

/-- The errors the adapter reports: "the adapter's exit status". -/
inductive AdapterError where
  /-- a declared key size outside 128, 192, 256 (R332) -/
  | badKeysize
  /-- a character outside the key-line set (R333) -/
  | keyFormat
  /-- the key's length (R333), found by the adapter or by the core -/
  | keyLength
  /-- no IV line in CBC (R334), or the core's NO_IV -/
  | noIv
  /-- a character outside the IV-line set (R334) -/
  | ivFormat
  /-- the IV's length (R334), found by the adapter or by the core -/
  | ivLength
  /-- a block line over 32 characters under FATAL (R338) -/
  | longLine
  /-- another ERRCODE that STATUS shows with FAULT = 1 (R335) -/
  | coreError (code : BitVec 4)
deriving DecidableEq, Repr

/-- The KSZ of a declared key size (R117, R332). -/
def kszOfSize (keysize : Nat) : Option (BitVec 2) :=
  if keysize = 128 then some 0 else if keysize = 192 then some 1 else if keysize = 256 then some 2 else none

/-- The outcome of the adapter: the core it leaves, the text it wrote, and the error it stopped with. -/
structure Outcome where
  core : State
  output : List Byte
  error : Option AdapterError
deriving DecidableEq, Repr

/-! ### Transactions -/

/-- The host performs an instruction's canonical transaction. -/
def issue (i : Instr) (s : State) : State := perform (encode i) s

/-- The value a read returned. -/
def lastRead (s : State) : Word := s.rdata.getD 0

/-- The name of the ERRCODE of a STATUS word (R335, R361). -/
def errorOfStatus (v : Word) : AdapterError :=
  match (v.extractLsb' 8 4).toNat with
  | 1 => .keyLength
  | 2 => .ivLength
  | 4 => .noIv
  | _ => .coreError (v.extractLsb' 8 4)

/-- `RD STATUS`, and the error it shows if FAULT = 1 (R335). -/
def statusError (s : State) : State × Option AdapterError :=
  let s := issue .rdStatus s
  (s, if (lastRead s).getLsbD 3 then some (errorOfStatus (lastRead s)) else none)

/-- `WR KEYj, group j` for j from 0 to n − 1 (R333). -/
def writeKeyGroups (l : Line) (n : Nat) (s : State) : State :=
  (List.range n).foldl (fun s j => issue (.wrKey (Fin.ofNat 8 j) (group l j)) s) s

/-- `WR IVj, group j` for j from 0 to n − 1 (R334). -/
def writeIvGroups (l : Line) (n : Nat) (s : State) : State :=
  (List.range n).foldl (fun s j => issue (.wrIv (Fin.ofNat 4 j) (group l j)) s) s

/-- `WR DINj, group j` for j from 0 to 3 (R337). -/
def writeDinGroups (l : Line) (s : State) : State :=
  (List.range 4).foldl (fun s j => issue (.wrDin (Fin.ofNat 4 j) (group l j)) s) s

/-! ### Block lines -/

/-- What becomes of a line of data characters (R337 to R339). -/
inductive LineUse where
  /-- no transaction and no output -/
  | skip
  /-- the adapter stops with LONG_LINE -/
  | stop
  /-- the 32 characters of a block -/
  | block (l : Line)
deriving DecidableEq, Repr

/-- "zero-padded on the left to 32 characters" (R337). -/
def padLeft (l : Line) : Line := List.replicate (32 - l.length) 0x30 ++ l

/-- The policy of an empty line (R339), of a long one (R338), else the padded line (R337). -/
def lineUse (pol : Policies) (l : Line) : LineUse :=
  if l.length = 0 then
    match pol.emptyLine with
    | .zeroBlock => .block (padLeft l)
    | .skip => .skip
  else if 32 < l.length then
    match pol.longLine with
    | .skip => .skip
    | .fatal => .stop
    | .truncate => .block (l.drop (l.length - 32))
  else .block (padLeft l)

/-- Writes DIN, issues `CMD BLOCK` (R337). -/
def processBlock (l : Line) (s : State) : State := issue .cmdBlock (writeDinGroups l s)

/-- Reads DOUT0 to DOUT3 and spells them, with one LF (R340). -/
def readOutput (s : State) : State × List Byte :=
  let s0 := issue (.rdDout 0) s
  let s1 := issue (.rdDout 1) s0
  let s2 := issue (.rdDout 2) s1
  let s3 := issue (.rdDout 3) s2
  (s3, hex8 (lastRead s0) ++ hex8 (lastRead s1) ++ hex8 (lastRead s2) ++ hex8 (lastRead s3) ++ [0x0A])

/-- The block lines in their order (R336 to R340). `out` is the text written so far. -/
def blockLines (pol : Policies) : List Line → State → List Byte → Outcome
  | [], s, out => ⟨s, out, none⟩
  | l :: ls, s, out =>
    if l.all isBlockChar then
      match lineUse pol l with
      | .skip => blockLines pol ls s out
      | .stop => ⟨s, out, some .longLine⟩
      | .block d => blockLines pol ls (readOutput (processBlock d s)).1 (out ++ (readOutput (processBlock d s)).2)
    else blockLines pol ls s out

/-! ### The whole adapter (Listing ADP-1) -/

/-- The IV line and what follows it, in CBC (R334, R335). -/
def afterKeyCbc (pol : Policies) (lines : List Line) (s : State) : Outcome :=
  match lines with
  | [] => ⟨s, [], some .noIv⟩
  | v :: rest =>
    if !v.all isKeyChar then ⟨s, [], some .ivFormat⟩
    else if v.length = 0 ∨ v.length % 8 ≠ 0 ∨ 32 < v.length then ⟨s, [], some .ivLength⟩
    else
      let r := statusError (issue (.cmdLoadiv (v.length / 8)) (writeIvGroups v (v.length / 8) s))
      match r.2 with
      | some e => ⟨r.1, [], some e⟩
      | none => blockLines pol rest r.1 []

/-- The key line and what follows it (R333, R335). -/
def afterConfig (cfg : AdapterConfig) (pol : Policies) (lines : List Line) (s : State) : Outcome :=
  match lines with
  | [] => ⟨s, [], some .keyLength⟩
  | k :: rest =>
    if !k.all isKeyChar then ⟨s, [], some .keyFormat⟩
    else if k.length = 0 ∨ k.length % 8 ≠ 0 ∨ 64 < k.length then ⟨s, [], some .keyLength⟩
    else
      let r := statusError (issue (.cmdKeyexp (k.length / 8)) (writeKeyGroups k (k.length / 8) s))
      match r.2 with
      | some e => ⟨r.1, [], some e⟩
      | none =>
        match cfg.mode with
        | .ecb => blockLines pol rest r.1 []
        | .cbc => afterKeyCbc pol rest r.1

/-- Listing ADP-1 on a core s and an input (R342). -/
def adapter (cfg : AdapterConfig) (pol : Policies) (input : List Byte) (s : State) : Outcome :=
  match kszOfSize cfg.keysize with
  | none => ⟨s, [], some .badKeysize⟩
  | some ksz => afterConfig cfg pol (splitLines input) (issue (.wrCtrl ksz cfg.dir cfg.mode) s)

end Sys2Proof.Machine.Adapter
end

