-- ==== Sys2Proof/Machine/Assembler.lean ====
section
/-! DEFINITION. The assembler syntax of 30_encoding section 6 (R115 to R117): its statements, their expansion to
transaction words, and their spelling. A host tool outside the core (log 19). -/

namespace Sys2Proof.Machine.Assembler

/-- Hexadecimal digits by value, the first the most significant. -/
abbrev Digits := List (BitVec 4)

/-- A statement (R115) or a pseudo-instruction (R117). -/
inductive Stmt where
  /-- `RD <reg>`, the register by its word address -/
  | rd (a : BitVec 5)
  /-- `WR <reg>, <imm>` -/
  | wr (a : BitVec 5) (v : Word)
  /-- `CMD <op>[, <len>]` -/
  | cmd (op : BitVec 4) (len : Nat)
  /-- `CFG <ksz>, <dir>, <mode>`, ksz by its code 0, 1, 2 -/
  | cfg (ksz : Fin 3) (dir : Direction) (mode : ChainMode)
  /-- `LDKEY <hex of 2·4·Nk digits>` -/
  | ldkey (d : Digits)
  /-- `LDIV <32 hex digits>` -/
  | ldiv (d : Digits)
  /-- `XBLK <32 hex digits>` -/
  | xblk (d : Digits)
  /-- `RDKS <i>` -/
  | rdks (i : Word)
  /-- `POLL`, "At the model's level it is one read" -/
  | poll
deriving DecidableEq, Repr

/-- `RD r` is `0 ‖ addr(r) ‖ 0x00000000` (R116). -/
def asmRead (a : BitVec 5) : Transaction := transactionWord false a 0

/-- `WR r, v` is `1 ‖ addr(r) ‖ v` (R116). -/
def asmWrite (a : BitVec 5) (v : Word) : Transaction := transactionWord true a v

/-- `CMD op, n` is `1 ‖ 00001 ‖ zext_32((n << 8) | code(op))` (R116). -/
def asmCommand (op : BitVec 4) (n : Nat) : Transaction :=
  transactionWord true 1 ((BitVec.ofNat 32 n <<< 8) ||| op.setWidth 32)

/-- 8-digit group j (R117). -/
def digitGroup (d : Digits) (j : Nat) : Word :=
  ((d.drop (8 * j)).take 8).foldl (fun acc x => (acc <<< 4) ||| x.setWidth 32) 0

/-- `WR base+j, group j` for j from 0 to n − 1. -/
def writeGroups (base n : Nat) (d : Digits) : List Transaction :=
  (List.range n).map fun j => asmWrite (groupAddr base j) (digitGroup d j)

/-- `mode·8 + dir·4 + kszcode` (R117). -/
def cfgValue (ksz : Fin 3) (dir : Direction) (mode : ChainMode) : Word :=
  BitVec.ofNat 32 ((bitOfMode mode).toNat * 8 + (bitOfDirection dir).toNat * 4 + ksz.val)

/-- The transactions of a statement, "in the order shown" (R117). An operand whose digit count does not fit "cannot be
expanded and is an assembly error": none. -/
def expand : Stmt → Option (List Transaction)
  | .rd a => some [asmRead a]
  | .wr a v => some [asmWrite a v]
  | .cmd op len => some [asmCommand op len]
  | .cfg ksz dir mode => some [asmWrite 0x00 (cfgValue ksz dir mode)]
  | .ldkey d =>
    if d.length = 32 ∨ d.length = 48 ∨ d.length = 64 then
      some (writeGroups 0x08 (d.length / 8) d ++ [asmCommand 0x1 (d.length / 8)])
    else none
  | .ldiv d => if d.length = 32 then some (writeGroups 0x10 4 d ++ [asmCommand 0x2 4]) else none
  | .xblk d =>
    if d.length = 32 then
      some (writeGroups 0x14 4 d ++ [asmCommand 0x3 0] ++ (List.range 4).map fun j => asmRead (groupAddr 0x18 j))
    else none
  | .rdks i => some [asmWrite 0x03 i, asmRead 0x04]
  | .poll => some [asmRead 0x02]

/-- The transactions of a program; none if one of its statements is an assembly error. -/
def expandAll : List Stmt → Option (List Transaction)
  | [] => some []
  | st :: sts =>
    match expand st, expandAll sts with
    | some ts, some us => some (ts ++ us)
    | _, _ => none

/-! ### Spelling (R115; log 19) -/

/-- The value of a hexadecimal digit, in either case. -/
def hexValue (c : Char) : Option (BitVec 4) :=
  if '0'.toNat ≤ c.toNat ∧ c.toNat ≤ '9'.toNat then some (BitVec.ofNat 4 (c.toNat - '0'.toNat))
  else if 'A'.toNat ≤ c.toNat ∧ c.toNat ≤ 'F'.toNat then some (BitVec.ofNat 4 (c.toNat - 'A'.toNat + 10))
  else if 'a'.toNat ≤ c.toNat ∧ c.toNat ≤ 'f'.toNat then some (BitVec.ofNat 4 (c.toNat - 'a'.toNat + 10))
  else none

/-- The value of a decimal digit. -/
def decValue (c : Char) : Option Nat :=
  if '0'.toNat ≤ c.toNat ∧ c.toNat ≤ '9'.toNat then some (c.toNat - '0'.toNat) else none

/-- Digits by value; none if a character is no hexadecimal digit. -/
def hexDigits : List Char → Option Digits
  | [] => some []
  | c :: cs =>
    match hexValue c, hexDigits cs with
    | some x, some xs => some (x :: xs)
    | _, _ => none

/-- A decimal number that continues `acc`. -/
def decNumber (acc : Nat) : List Char → Option Nat
  | [] => some acc
  | c :: cs =>
    match decValue c with
    | some x => decNumber (10 * acc + x) cs
    | none => none

/-- A literal, hexadecimal `0x...` or decimal (R115). -/
def literal : List Char → Option Nat
  | '0' :: 'x' :: c :: cs => (hexDigits (c :: cs)).map fun d => d.foldl (fun acc x => 16 * acc + x.toNat) 0
  | c :: cs => decNumber 0 (c :: cs)
  | [] => none

/-- `<imm>`, "a 32-bit hexadecimal or decimal literal" (R115). -/
def immediate (cs : List Char) : Option Word :=
  match literal cs with
  | some n => if n < 2 ^ 32 then some (BitVec.ofNat 32 n) else none
  | none => none

/-- The number of a numbered register, if it is below n. -/
def registerDigit (n : Nat) (c : Char) : Option Nat :=
  match decValue c with
  | some x => if x < n then some x else none
  | none => none

/-- The word address of a register name (R33, R115). -/
def register : List Char → Option (BitVec 5)
  | ['C', 'T', 'R', 'L'] => some 0x00
  | ['C', 'M', 'D'] => some 0x01
  | ['S', 'T', 'A', 'T', 'U', 'S'] => some 0x02
  | ['R', 'K', 'I', 'D', 'X'] => some 0x03
  | ['R', 'K', 'D', 'A', 'T', 'A'] => some 0x04
  | ['R', 'S', 'V', 'D', '5'] => some 0x05
  | ['R', 'S', 'V', 'D', '6'] => some 0x06
  | ['R', 'S', 'V', 'D', '7'] => some 0x07
  | ['K', 'E', 'Y', c] => (registerDigit 8 c).map (groupAddr 0x08)
  | ['I', 'V', c] => (registerDigit 4 c).map (groupAddr 0x10)
  | ['D', 'I', 'N', c] => (registerDigit 4 c).map (groupAddr 0x14)
  | ['D', 'O', 'U', 'T', c] => (registerDigit 4 c).map (groupAddr 0x18)
  | ['C', 'H', 'A', 'I', 'N', c] => (registerDigit 4 c).map (groupAddr 0x1C)
  | _ => none

/-- The opcode of an `<op>`, a name or `OP<hex digit>` (R115). -/
def opcode : List Char → Option (BitVec 4)
  | ['N', 'O', 'P'] => some 0x0
  | ['K', 'E', 'Y', 'E', 'X', 'P'] => some 0x1
  | ['L', 'O', 'A', 'D', 'I', 'V'] => some 0x2
  | ['B', 'L', 'O', 'C', 'K'] => some 0x3
  | ['C', 'L', 'E', 'A', 'R'] => some 0xF
  | ['O', 'P', c] => hexValue c
  | _ => none

/-- The code of a `<ksz>` of CFG (R117). -/
def cfgSize : List Char → Option (Fin 3)
  | ['1', '2', '8'] => some 0
  | ['1', '9', '2'] => some 1
  | ['2', '5', '6'] => some 2
  | _ => none

/-- ENC or DEC (R117). -/
def cfgDirection : List Char → Option Direction
  | ['E', 'N', 'C'] => some .encrypt
  | ['D', 'E', 'C'] => some .decrypt
  | _ => none

/-- ECB or CBC (R117). -/
def cfgMode : List Char → Option ChainMode
  | ['E', 'C', 'B'] => some .ecb
  | ['C', 'B', 'C'] => some .cbc
  | _ => none

/-- A line up to its comment; "A `;` starts a comment" (R115). -/
def dropComment : List Char → List Char
  | [] => []
  | c :: cs => if c = ';' then [] else c :: dropComment cs

/-- The words of a line, apart at blanks and commas (log 19). `word` is the word so far, the last character first. -/
def wordsFrom : List Char → List Char → List (List Char)
  | [], word => if word.isEmpty then [] else [word.reverse]
  | c :: cs, word =>
    if c = ' ' ∨ c = '\t' ∨ c = ',' then
      if word.isEmpty then wordsFrom cs [] else word.reverse :: wordsFrom cs []
    else wordsFrom cs (c :: word)

/-- The statement of a line's words (R115, R117); none if they are no statement. -/
def statement : List (List Char) → Option Stmt
  | [['R', 'D'], r] => (register r).map .rd
  | [['W', 'R'], r, v] =>
    match register r, immediate v with
    | some a, some x => some (.wr a x)
    | _, _ => none
  | [['C', 'M', 'D'], o] => (opcode o).map fun op => .cmd op 0
  | [['C', 'M', 'D'], o, n] =>
    match opcode o, literal n with
    | some op, some len => some (.cmd op len)
    | _, _ => none
  | [['C', 'F', 'G'], k, d, m] =>
    match cfgSize k, cfgDirection d, cfgMode m with
    | some ksz, some dir, some mode => some (.cfg ksz dir mode)
    | _, _, _ => none
  | [['L', 'D', 'K', 'E', 'Y'], h] => (hexDigits h).map .ldkey
  | [['L', 'D', 'I', 'V'], h] => (hexDigits h).map .ldiv
  | [['X', 'B', 'L', 'K'], h] => (hexDigits h).map .xblk
  | [['R', 'D', 'K', 'S'], i] => (immediate i).map .rdks
  | [['P', 'O', 'L', 'L']] => some .poll
  | _ => none

/-- What a line of a source text is. -/
inductive LineKind where
  /-- blank or comment only -/
  | blank
  /-- one statement -/
  | stmt (st : Stmt)
  /-- an assembly error -/
  | error
deriving DecidableEq, Repr

/-- One line: "one statement per line" (R115). -/
def parseLine (cs : List Char) : LineKind :=
  match wordsFrom (dropComment cs) [] with
  | [] => .blank
  | w :: ws =>
    match statement (w :: ws) with
    | some st => .stmt st
    | none => .error

/-- The statements of a source text, given line by line; none if a line is an assembly error. -/
def parseLines : List (List Char) → Option (List Stmt)
  | [] => some []
  | l :: ls =>
    match parseLine l, parseLines ls with
    | .blank, some sts => some sts
    | .stmt st, some sts => some (st :: sts)
    | _, _ => none

/-- A source text to its transaction words. -/
def assemble (lines : List (List Char)) : Option (List Transaction) :=
  match parseLines lines with
  | some sts => expandAll sts
  | none => none

end Sys2Proof.Machine.Assembler
end

