-- ==== Sys2Proof/Machine/Timing.lean ====
section
/-! DEFINITION. An implementation with latencies and a reset pin, around the architectural machine: STATUS.BUSY over
cycles (10_state R46, 70_reset_and_hazards R410, R411, R415) and `rst` (R400). The parameters LAT_* and RESET_STYLE
are arguments (00_scope R11). The architectural machine itself has no cycles (log 14 to 17, 21). -/

namespace Sys2Proof.Machine.Timing

/-- What an implementation fixes (R11). -/
structure Params where
  lat : Config.Latency
  style : Config.ResetStyle

/-- An implementation: the core, the cycles for which BUSY is still held, and whether reset is asserted. -/
structure Impl where
  core : State
  left : Nat
  inReset : Bool
deriving DecidableEq, Repr

/-- What happens at the pins. -/
inductive PinEvent where
  /-- the reset input is at this level -/
  | rst (level : Bool)
  /-- a cycle of the clock passes -/
  | cycle
  /-- the host issues a transaction -/
  | transaction (t : Transaction)
deriving DecidableEq, Repr

/-- Whether reset is asserted at a level of `rst`, by its polarity (R400). -/
def asserted : Config.ResetStyle → Bool → Bool
  | .syncHigh, level | .asyncHigh, level => level
  | .syncLow, level | .asyncLow, level => !level

/-- The cycles an instruction holds BUSY (R415): only "OP ∈ {0x1, 0x2, 0x3, 0xF}" does; a CTRL write "and every other
register access complete within their transaction in every implementation, and set no BUSY" (R410). -/
def latencyOf (lat : Config.Latency) (s : State) : Instr → Nat
  | .cmdKeyexp _ => lat.keyexp
  | .cmdLoadiv _ => lat.loadiv
  | .cmdBlock => lat.block (nrOf s.ctrl.ksz) s.ctrl.dir
  | .cmdClear => lat.clear
  | _ => 0

/-- n cycles of BUSY are left: STATUS.BUSY is 1 exactly while n is not 0 (R46). -/
def holdBusy (n : Nat) (m : Impl) : Impl := { m with core := { m.core with busy := decide (n ≠ 0) }, left := n }

/-- A transaction at the pins. In reset "the port accepts no transaction" (R400). While BUSY = 1 the core answers as
R411 says and "The command in progress finishes unaffected". Otherwise it is performed, and a command then holds BUSY
for its latency (log 14). So the BUSY_ACCESS of a write that disturbs a command is written after the command's own FAULT
and ERRCODE, which the spec does not order (DESIGN CHOICE, unsafe; log 21). -/
def issue (p : Params) (t : Transaction) (m : Impl) : Impl :=
  if m.inReset then m
  else if m.core.busy then { m with core := perform t m.core }
  else holdBusy (latencyOf p.lat m.core (decode t)) { m with core := perform t m.core }

/-- One event at the pins. A reset asserted while a command executes aborts it, "and none of the command's effects
survive" (R400). -/
def pinStep (p : Params) (m : Impl) : PinEvent → Impl
  | .rst level =>
    if asserted p.style level then { core := resetInput m.core, left := 0, inReset := true }
    else { m with inReset := false }
  | .cycle => holdBusy (m.left - 1) m
  | .transaction t => issue p t m

/-- A sequence of events, the first first. -/
def run (p : Params) (m : Impl) : List PinEvent → Impl
  | [] => m
  | e :: es => run p (pinStep p m e) es

/-- An implementation in which every command ends within its transaction: the architectural machine's own timing
(R46). -/
def zeroLatency (p : Params) : Params := { p with lat := ⟨0, 0, fun _ _ => 0, 0⟩ }

/-- The host keeps its duty: it issues no transaction but a STATUS read while BUSY = 1 (R410). -/
def Polite (p : Params) : Impl → List PinEvent → Prop
  | _, [] => True
  | m, .transaction t :: es =>
    (m.core.busy = true → decode t = .rdStatus) ∧ Polite p (pinStep p m (.transaction t)) es
  | m, e :: es => Polite p (pinStep p m e) es

/-- The core but for what a poll can see of time: BUSY, and the read data of the last transaction. -/
def untimed (s : State) : State := { s with busy := false, rdata := none }

/-- BUSY is 1 exactly while cycles of a command are left (R46). -/
def Impl.consistent (m : Impl) : Prop := m.core.busy = decide (m.left ≠ 0)

end Sys2Proof.Machine.Timing
end

