-- ==== Sys2Proof/Safety.lean ====
section
/-! DEFINITION. What counts as a safe run: the machine never stops, and the invariants of 10_state R63 and those that
60_exceptions R368 rests on hold between transactions. And the host's runs, Listing RS-1, in which claims about
sequences of blocks are stated. -/

namespace Sys2Proof.Machine

/-! ### Safe -/

/-- The machine goes on: the step answers a next state. -/
def Runs (s : State) : Prop := ∃ s', step s = .next s'

/-- The key-schedule words below NW are the expansion of some key words. (Which key: KEYEXP's own statement says that it
is the one in KEY0 to KEY(Nk−1) when KEYEXP ran, and no other transaction of the run writes W, R42, R57.) -/
def ScheduleValid (s : State) : Prop :=
  ∃ (key : Vector AesWord 8) (old : Vector AesWord 60), ∀ i, i < nwOf s.ctrl.ksz →
    scheduleWord s.w i = scheduleWord (keyExpansion (nkOf s.ctrl.ksz) (nwOf s.ctrl.ksz) key old) i

/-- The invariants of R63, (a) to (g), "between any two transactions". -/
structure Inv (s : State) : Prop where
  /-- (a) -/
  keySize : s.keyValid = true → s.ctrl.ksz ≠ 3
  /-- (a) -/
  schedule : s.keyValid = true → ScheduleValid s
  /-- (b) -/
  ivMode : s.ivValid = true → s.ctrl.mode = .cbc
  /-- (c) -/
  faultCode : s.fault = true → s.errCode.isFatal = true
  /-- (d) -/
  faultOut : s.fault = true → s.outValid = false ∧ s.dout = zeroRegs
  /-- (e) -/
  noOut : s.outValid = false → s.dout = zeroRegs
  /-- (f) -/
  ecbChain : s.ctrl.mode = .ecb → s.chain = Block.zero
  /-- (g) -/
  notBusy : s.busy = false

/-- A run that has output has its key and, in CBC, its IV (what R368 rests on); between transactions "the phase is
IDLE" (R61). -/
structure RunInv (s : State) : Prop where
  outKey : s.outValid = true → s.keyValid = true
  outIv : s.outValid = true → s.ctrl.mode = .cbc → s.ivValid = true
  phaseIdle : s.phase = .idle

/-! ### What the host can see -/

/-- Two states that the host cannot tell apart: all is equal but what R64 and 93_implementation_defined section 2 call
unspecified, namely S, CAP, the counters and the snapshot, the words of W that RKDATA and BLOCK do not read, and the
model's own counter of free values. -/
structure LookAlike (s t : State) : Prop where
  ctrl : s.ctrl = t.ctrl
  keyValid : s.keyValid = t.keyValid
  ivValid : s.ivValid = t.ivValid
  outValid : s.outValid = t.outValid
  fault : s.fault = t.fault
  busy : s.busy = t.busy
  errCode : s.errCode = t.errCode
  rkidx : s.rkidx = t.rkidx
  key : s.key = t.key
  iv : s.iv = t.iv
  din : s.din = t.din
  dout : s.dout = t.dout
  chain : s.chain = t.chain
  phase : s.phase = t.phase
  rdata : s.rdata = t.rdata
  inputs : s.inputs = t.inputs
  schedule : s.keyValid = true → ∀ i, i < nwOf s.ctrl.ksz → scheduleWord s.w i = scheduleWord t.w i

/-- BLOCK's preconditions (R269), and the key size that KEY_VALID implies (R63 (a)). -/
structure BlockReady (s : State) : Prop where
  fault : s.fault = false
  keyValid : s.keyValid = true
  ivValid : s.ctrl.mode = .cbc → s.ivValid = true
  keySize : s.ctrl.ksz ≠ 3

/-- A transaction that does not end a run: neither a CTRL write nor CLEAR (R260). -/
def staysInRun : Instr → Bool
  | .wrCtrl _ _ _ | .cmdClear => false
  | .rdCtrl | .rdCmd | .rdStatus | .rdRkidx | .rdRkdata | .rdRsvd5 | .rdRsvd67 _ => true
  | .rdKey _ | .rdIv _ | .rdDin _ | .rdDout _ | .rdChain _ => true
  | .cmdNop | .cmdKeyexp _ | .cmdLoadiv _ | .cmdBlock => true
  | .cmdRsvd4 | .cmdRsvd5 | .cmdRsvd6 | .cmdRsvd7 | .cmdRsvd8 | .cmdRsvd9 => true
  | .cmdRsvdA | .cmdRsvdB | .cmdRsvdC | .cmdRsvdD | .cmdRsvdE => true
  | .wrStatus | .wrRkidx _ | .wrRkdata | .wrRsvd5 | .wrRsvd67 _ => true
  | .wrKey _ _ | .wrIv _ _ | .wrDin _ _ | .wrDout _ | .wrChain _ => true

/-- The 11 reserved opcodes (R265). -/
def reservedOpcodes : List Instr :=
  [.cmdRsvd4, .cmdRsvd5, .cmdRsvd6, .cmdRsvd7, .cmdRsvd8, .cmdRsvd9, .cmdRsvdA, .cmdRsvdB, .cmdRsvdC, .cmdRsvdD,
   .cmdRsvdE]

/-! ### The host's runs -/

/-- The state after an instruction. (Every instruction has a next state; the other cases keep the state.) -/
def after (i : Instr) (s : State) : State :=
  match exec i s with
  | .next s' => s'
  | .fault _ => s
  | .refused _ => s

/-- The state after instructions, the first first. -/
def afterAll : List Instr → State → State
  | [], s => s
  | i :: is, s => afterAll is (after i s)

/-- `WR DIN0 .. WR DIN3` with the columns of a block, then `CMD BLOCK` (Listing RS-1). -/
def feedBlock (x : Block) : List Instr :=
  [.wrDin 0 (pack x.c0), .wrDin 1 (pack x.c1), .wrDin 2 (pack x.c2), .wrDin 3 (pack x.c3), .cmdBlock]

/-- The blocks that DOUT0 to DOUT3 hold after each block of a stream (Listing RS-1). -/
def outputs : List Block → State → List Block
  | [], _ => []
  | x :: xs, s => blockOfRegs (afterAll (feedBlock x) s).dout :: outputs xs (afterAll (feedBlock x) s)

/-- `WR KEY0 .. WR KEY7` (the words from Nk on are ignored, R52). -/
def loadKey (key : Vector Word 8) : List Instr := (List.finRange 8).map fun j => .wrKey j key[j]

/-- `WR IV0 .. WR IV3`. -/
def loadIv (iv : Vector Word 4) : List Instr := (List.finRange 4).map fun j => .wrIv j iv[j]

/-- The head of Listing RS-1: the configuration, the key and KEYEXP, the IV and LOADIV (a no-op in ECB, R267). -/
def startOfRun (ksz : BitVec 2) (dir : Direction) (mode : ChainMode) (key : Vector Word 8) (iv : Vector Word 4) :
    List Instr :=
  [.wrCtrl ksz dir mode] ++ loadKey key ++ [.cmdKeyexp (nkOf ksz)] ++ loadIv iv ++ [.cmdLoadiv 4]

end Sys2Proof.Machine
end

