-- ==== Sys2Proof/Certificates/Slice0/Obligations.lean ====
section
/-! DEFINITION. The statements for the provers. Each says what the rules of spec/ that its docstring names say of the
model. A statement about the next state of an instruction is an equation for exec, so it says also where the
instruction completes and what it leaves unchanged. -/

open Sys2Proof Sys2Proof.Machine

/-! ### Encoding (30_encoding) -/

/-- Every bit of an encoding is kept: decoding the encoder's word gives the instruction back, with every operand at
every value that the encoding admits (R100, R104 to R109). -/
def Obligations.DecodeOfEncode : Prop :=
  ∀ i : Instr, i.wellFormed = true → decode (encode i) = i

/-- The rows partition the transaction space: 39 rows, and every word selects exactly one, that of the instruction it
decodes to (R111, R118). -/
def Obligations.RowsPartitionTheTransactions : Prop :=
  opcodeTable.length = 39 ∧ ∀ t : Transaction, selectedRows t = [(decode t).row]

/-- What a word decodes to is well-formed, and only WE, ADDR and, in a write to CMD, DATA[3:0] choose the row (R103);
a read ignores DATA (R101). -/
def Obligations.DecodeUsesOnlyTheNamedFields : Prop :=
  (∀ t : Transaction, (decode t).wellFormed = true) ∧
  (∀ t u : Transaction, weOf t = weOf u → addrOf t = addrOf u →
    (weOf t = true → addrOf t = 1 → opOf (dataOf t) = opOf (dataOf u)) → (decode t).row = (decode u).row) ∧
  (∀ t u : Transaction, weOf t = false → weOf u = false → addrOf t = addrOf u → decode t = decode u)

/-- Words written out in the spec decode to the instruction they stand for, one of each family (R100, R116, R261, R264,
R265, R267, R270, R274, R305, R306, R313, R318). -/
def Obligations.SpecWordsDecode : Prop :=
  decode 0x2100000401 = .cmdKeyexp 4 ∧ decode 0x1A00000000 = .rdDout 2 ∧
  decode 0x2B0C0D0E0F = .wrKey 3 0x0C0D0E0F ∧ decode 0x2000000009 = .wrCtrl 1 .encrypt .cbc ∧
  decode 0x2100000000 = .cmdNop ∧ decode 0x2100000007 = .cmdRsvd7 ∧ decode 0x2100000402 = .cmdLoadiv 4 ∧
  decode 0x2100000003 = .cmdBlock ∧ decode 0x210000000F = .cmdClear ∧ decode 0x230000002B = .wrRkidx 43 ∧
  decode 0x0400000000 = .rdRkdata ∧ decode 0x330C0D0E0F = .wrIv 3 0x0C0D0E0F ∧ decode 0x1C00000000 = .rdChain 0

/-! ### The step (20_memory R71 to R73, 70_reset_and_hazards) -/

/-- A step performs the oldest transaction that the host has yet to do: when BUSY is 0 it is exec of the decoded word,
with the port's read data empty until a read answers (R72, R73; the queue and the read data are the model's, log 1
and 2). What is placed with withFetchWord is what the very next step runs (log 1). -/
def Obligations.StepRunsTheDecodedTransaction : Prop :=
  (∀ (s : State) (t : Transaction) (rest : List HostEvent), s.busy = false → s.inputs = .transaction t :: rest →
    step s = exec (decode t) { s with inputs := rest, rdata := none }) ∧
  ∀ (s : State) (w : Nat) (i : Instr), decodeTableWord 38 w = some i →
    step (s.withFetchWord 38 w) = exec i { s with busy := false, rdata := none }

/-- The machine never stops: every state has a next state, whatever the host does (R82, R369); "It acts only when the
host performs a transaction" (R31): with nothing to do a step changes nothing (log 3). -/
def Obligations.EveryStepGoesOn : Prop :=
  ∀ s : State, Runs s ∧ (s.inputs = [] → step s = .next s)

/-- A transaction other than a STATUS read received while BUSY = 1: a write is ignored and BUSY_ACCESS recorded if
FAULT = 0; a read returns some value and has no other effect; a STATUS read is performed (R411; that the architectural
step follows R411 in a state it cannot reach is log 8). -/
def Obligations.AccessWhileBusy : Prop :=
  ∀ (s : State) (t : Transaction) (rest : List HostEvent), s.busy = true → s.inputs = .transaction t :: rest →
    (weOf t = true → step s = .next
      { s with inputs := rest, rdata := none, errCode := if s.fault then s.errCode else .busyAccess }) ∧
    (weOf t = false → decode t ≠ .rdStatus → ∃ v,
      step s = .next { s with inputs := rest, rdata := some v, draws := s.draws + 1 }) ∧
    (decode t = .rdStatus → step s = exec .rdStatus { s with inputs := rest, rdata := none })

/-! ### Reads (46_register_access) -/

/-- RD.CTRL, RD.CMD, RD.RKIDX, RD.RSVD5 and RD.RSVD67: their words, their values, and no other effect (R300, R301, R304,
R308). -/
def Obligations.ControlReads : Prop :=
  ∀ (s : State) (v : Word),
    decode (transactionWord false 0x00 v) = .rdCtrl ∧ decode (transactionWord false 0x01 v) = .rdCmd ∧
    decode (transactionWord false 0x03 v) = .rdRkidx ∧ decode (transactionWord false 0x05 v) = .rdRsvd5 ∧
    decode (transactionWord false 0x06 v) = .rdRsvd67 0 ∧ decode (transactionWord false 0x07 v) = .rdRsvd67 1 ∧
    (∃ x : Word, exec .rdCtrl s = .next { s with rdata := some x } ∧ x.extractLsb' 0 2 = s.ctrl.ksz ∧
      (x.getLsbD 2 = true ↔ s.ctrl.dir = .decrypt) ∧ (x.getLsbD 3 = true ↔ s.ctrl.mode = .cbc) ∧
      x.extractLsb' 4 28 = 0) ∧
    exec .rdCmd s = .next { s with rdata := some 0 } ∧
    exec .rdRkidx s = .next { s with rdata := some (s.rkidx.setWidth 32) } ∧
    exec .rdRsvd5 s = .next { s with rdata := some 0 } ∧
    ∀ j, exec (.rdRsvd67 j) s = .next { s with rdata := some 0 }

/-- RD.STATUS returns every field of the STATUS layout at its place, ERRCODE by the numbers of the table of R361, the
reserved bits 0, NK and NR from KSZ, and has no other effect (R302, R41, R48). -/
def Obligations.StatusRead : Prop :=
  ∀ (s : State) (v : Word), decode (transactionWord false 0x02 v) = .rdStatus ∧
    ∃ x : Word, exec .rdStatus s = .next { s with rdata := some x } ∧
      x.getLsbD 0 = s.keyValid ∧ x.getLsbD 1 = s.ivValid ∧ x.getLsbD 2 = s.outValid ∧ x.getLsbD 3 = s.fault ∧
      x.getLsbD 4 = s.busy ∧ x.extractLsb' 5 3 = 0 ∧ x.extractLsb' 12 4 = 0 ∧
      x.extractLsb' 8 4 =
        (match s.errCode with
         | .none => 0
         | .keyLength => 1
         | .ivLength => 2
         | .noKey => 3
         | .noIv => 4
         | .keySize => 5
         | .illegalCmd => 6
         | .sequence => 7
         | .busyAccess => 8) ∧
      ((x.extractLsb' 20 4).toNat, (x.extractLsb' 16 4).toNat) =
        (if s.ctrl.ksz = 0 then (4, 10) else if s.ctrl.ksz = 1 then (6, 12) else if s.ctrl.ksz = 2 then (8, 14)
          else (0, 0)) ∧
      x.extractLsb' 24 8 = 0

/-- RD.RKDATA: the word W[INDEX], byte 0 in bits 31:24, when KEY_VALID = 1 and INDEX < NW; 0 in every other case (R306,
R51). That KSZ = 3 has no word below NW, so that RKDATA reads 0 there even with KEY_VALID = 1, is the model's reading, of
a state that no run reaches (DEDUCED; log 13). -/
def Obligations.WindowRead : Prop :=
  ∀ (s : State) (v : Word), decode (transactionWord false 0x04 v) = .rdRkdata ∧
    ∃ x : Word, exec .rdRkdata s = .next { s with rdata := some x } ∧
      (∀ i : Fin 60, s.rkidx.toNat = i.val → s.keyValid = true → s.ctrl.ksz ≠ 3 →
        i.val < 44 + 8 * s.ctrl.ksz.toNat →
        x.extractLsb' 24 8 = s.w[i].b0 ∧ x.extractLsb' 16 8 = s.w[i].b1 ∧ x.extractLsb' 8 8 = s.w[i].b2 ∧
          x.extractLsb' 0 8 = s.w[i].b3) ∧
      (s.keyValid = false ∨ s.ctrl.ksz = 3 ∨ 44 + 8 * s.ctrl.ksz.toNat ≤ s.rkidx.toNat → x = 0)

/-- RD.KEY, RD.IV, RD.DIN, RD.DOUT and RD.CHAIN: their words, their values, and no other effect; OUT_VALID is not
cleared (R310, R312, R314, R316, R318). -/
def Obligations.DataRegisterReads : Prop :=
  ∀ (s : State) (v : Word),
    (∀ j : Fin 8, decode (transactionWord false (BitVec.ofNat 5 (0x08 + j.val)) v) = .rdKey j ∧
      exec (.rdKey j) s = .next { s with rdata := some s.key[j] }) ∧
    (∀ j : Fin 4, decode (transactionWord false (BitVec.ofNat 5 (0x10 + j.val)) v) = .rdIv j ∧
      exec (.rdIv j) s = .next { s with rdata := some s.iv[j] }) ∧
    (∀ j : Fin 4, decode (transactionWord false (BitVec.ofNat 5 (0x14 + j.val)) v) = .rdDin j ∧
      exec (.rdDin j) s = .next { s with rdata := some s.din[j] }) ∧
    (∀ j : Fin 4, decode (transactionWord false (BitVec.ofNat 5 (0x18 + j.val)) v) = .rdDout j ∧
      exec (.rdDout j) s = .next { s with rdata := some s.dout[j] }) ∧
    (∀ j : Fin 4, decode (transactionWord false (BitVec.ofNat 5 (0x1C + j.val)) v) = .rdChain j ∧
      exec (.rdChain j) s = .next { s with rdata := some (pack (s.chain.col j)) })

/-- Every read returns a value and changes nothing but the port's read data (R78, R320). -/
def Obligations.ReadsHaveNoSideEffect : Prop :=
  ∀ (t : Transaction) (s : State), weOf t = false → ∃ v : Word, exec (decode t) s = .next { s with rdata := some v }

/-- After reset, after the reset input and after CLEAR in any state, STATUS reads 0x004A0000 and every other address
reads 0 (R65, R401). -/
def Obligations.ReadsAfterReset : Prop :=
  ∀ (a : BitVec 5) (s u : State), (u = State.reset ∨ u = resetInput s ∨ exec .cmdClear s = .next u) →
    exec (decode (transactionWord false a 0)) u =
      .next { u with rdata := some (if a = 0x02 then 0x004A0000 else 0) }

/-! ### Writes (46_register_access, 45_mode_sequencer) -/

/-- WR.STATUS, WR.RKDATA, WR.RSVD5, WR.RSVD67, WR.DOUT and WR.CHAIN: their words, and no effect at all (R303, R307, R309,
R317, R319). -/
def Obligations.IgnoredWrites : Prop :=
  ∀ (s : State) (v : Word),
    decode (transactionWord true 0x02 v) = .wrStatus ∧ exec .wrStatus s = .next s ∧
    decode (transactionWord true 0x04 v) = .wrRkdata ∧ exec .wrRkdata s = .next s ∧
    decode (transactionWord true 0x05 v) = .wrRsvd5 ∧ exec .wrRsvd5 s = .next s ∧
    (∀ j : Fin 2, decode (transactionWord true (BitVec.ofNat 5 (0x06 + j.val)) v) = .wrRsvd67 j ∧
      exec (.wrRsvd67 j) s = .next s) ∧
    (∀ j : Fin 4, decode (transactionWord true (BitVec.ofNat 5 (0x18 + j.val)) v) = .wrDout j ∧
      exec (.wrDout j) s = .next s) ∧
    (∀ j : Fin 4, decode (transactionWord true (BitVec.ofNat 5 (0x1C + j.val)) v) = .wrChain j ∧
      exec (.wrChain j) s = .next s)

/-- WR.KEY, WR.IV, WR.DIN and WR.RKIDX: their words; the register written takes the value, in every state, and nothing
else changes (R305, R311, R313, R315). -/
def Obligations.DataRegisterWrites : Prop :=
  ∀ (s : State) (v : Word),
    (∀ j : Fin 8, decode (transactionWord true (BitVec.ofNat 5 (0x08 + j.val)) v) = .wrKey j v ∧
      ∃ r : Vector Word 8, exec (.wrKey j v) s = .next { s with key := r } ∧
        ∀ k : Fin 8, r[k] = if k = j then v else s.key[k]) ∧
    (∀ j : Fin 4, decode (transactionWord true (BitVec.ofNat 5 (0x10 + j.val)) v) = .wrIv j v ∧
      ∃ r : Vector Word 4, exec (.wrIv j v) s = .next { s with iv := r } ∧
        ∀ k : Fin 4, r[k] = if k = j then v else s.iv[k]) ∧
    (∀ j : Fin 4, decode (transactionWord true (BitVec.ofNat 5 (0x14 + j.val)) v) = .wrDin j v ∧
      ∃ r : Vector Word 4, exec (.wrDin j v) s = .next { s with din := r } ∧
        ∀ k : Fin 4, r[k] = if k = j then v else s.din[k]) ∧
    decode (transactionWord true 0x03 v) = .wrRkidx (v.extractLsb' 0 6) ∧
    ∀ x : BitVec 6, exec (.wrRkidx x) s = .next { s with rkidx := x }

/-- WR.CTRL: every value is accepted, in every state; the fields are v[1:0], v[2] and v[3]; the run's flags, DOUT and
CHAIN are cleared; KEY, IV, DIN, RKIDX and W are unchanged (R261). -/
def Obligations.CtrlWriteStartsARun : Prop :=
  (∀ v : Word, decode (transactionWord true 0x00 v) =
    .wrCtrl (v.extractLsb' 0 2) (if v.getLsbD 2 then .decrypt else .encrypt) (if v.getLsbD 3 then .cbc else .ecb)) ∧
  ∀ (ksz : BitVec 2) (dir : Direction) (mode : ChainMode) (s : State), exec (.wrCtrl ksz dir mode) s =
    .next { s with
      ctrl := ⟨ksz, dir, mode⟩
      keyValid := false
      ivValid := false
      outValid := false
      fault := false
      errCode := .none
      dout := #v[0, 0, 0, 0]
      chain := ⟨⟨0, 0, 0, 0⟩, ⟨0, 0, 0, 0⟩, ⟨0, 0, 0, 0⟩, ⟨0, 0, 0, 0⟩⟩ }

/-! ### Commands (43_key_expansion, 45_mode_sequencer, 60_exceptions) -/

/-- CMD.NOP, by any command word with OP = 0, in every state: no effect (R264). -/
def Obligations.NopDoesNothing : Prop :=
  ∀ (v : Word) (s : State), opOf v = 0 →
    decode (transactionWord true 0x01 v) = .cmdNop ∧ exec .cmdNop s = .next s

/-- The 11 reserved opcodes behave identically: ILLEGAL_CMD is recorded when FAULT = 0, and nothing else happens; a
command word with OP from 4 to 0xE is one of them (R265). -/
def Obligations.ReservedOpcodes : Prop :=
  (∀ v : Word, 4 ≤ (opOf v).toNat → (opOf v).toNat ≤ 14 → decode (transactionWord true 0x01 v) ∈ reservedOpcodes) ∧
  ∀ i ∈ reservedOpcodes, ∀ s : State,
    exec i s = .next { s with errCode := if s.fault then s.errCode else .illegalCmd }

/-- CMD.KEYEXP, Listing KX-2: the checks in their order and what each does; when all pass, W becomes KeyExpansion of the
key words, KEY_VALID becomes 1, and nothing else changes that the host can see (R220). S, CAP and the counters are
free afterwards (log 6), and the counter of free values advances (log 7). -/
def Obligations.KeyexpCommand : Prop :=
  ∀ (len : Nat) (s : State),
    (s.fault = true → exec (.cmdKeyexp len) s = .next s) ∧
    (s.fault = false → s.keyValid = true → exec (.cmdKeyexp len) s = .next { s with errCode := .sequence }) ∧
    (s.fault = false → s.keyValid = false → s.ctrl.ksz = 3 → exec (.cmdKeyexp len) s =
      .next { s with fault := true, errCode := .keySize, outValid := false, dout := #v[0, 0, 0, 0] }) ∧
    (s.fault = false → s.keyValid = false → s.ctrl.ksz ≠ 3 → len ≠ 4 + 2 * s.ctrl.ksz.toNat →
      exec (.cmdKeyexp len) s =
        .next { s with fault := true, errCode := .keyLength, outValid := false, dout := #v[0, 0, 0, 0] }) ∧
    (s.fault = false → s.keyValid = false → s.ctrl.ksz ≠ 3 → len = 4 + 2 * s.ctrl.ksz.toNat →
      ∃ d : Config.Datapath, exec (.cmdKeyexp len) s = .next { s with
        w := keyExpansion len (4 * (len + 7)) (s.key.map unpack) s.w
        keyValid := true
        phase := .idle
        dp := d
        draws := s.draws + 1 })

/-- KeyExpansion follows Listing KX-1 for each of the three key lengths: the first Nk words are the key's, every later
word up to NW is the one Nk back XOR the case's word, and no word from NW on is written (R214, R215, R218). -/
def Obligations.KeyExpansionFollowsItsListing : Prop :=
  ∀ (nk nw : Nat) (key : Vector AesWord 8) (old : Vector AesWord 60),
    (nk = 4 ∧ nw = 44 ∨ nk = 6 ∧ nw = 52 ∨ nk = 8 ∧ nw = 60) →
    (∀ (i : Fin 8), i.val < nk → scheduleWord (keyExpansion nk nw key old) i.val = key[i]) ∧
    (∀ i : Nat, nk ≤ i → i < nw →
      scheduleWord (keyExpansion nk nw key old) i =
        (scheduleWord (keyExpansion nk nw key old) (i - nk)).xor
          (let t := scheduleWord (keyExpansion nk nw key old) (i - 1)
           if i % nk = 0 then
             ⟨sbox t.b1 ^^^ rconTable.getD (i / nk - 1) 0, sbox t.b2, sbox t.b3, sbox t.b0⟩
           else if nk = 8 ∧ i % nk = 4 then ⟨sbox t.b0, sbox t.b1, sbox t.b2, sbox t.b3⟩
           else t)) ∧
    (∀ i : Nat, nw ≤ i → i < 60 → scheduleWord (keyExpansion nk nw key old) i = scheduleWord old i)

/-- CMD.LOADIV, Listing SEQ-2: the checks in their order and what each does; when all pass, CHAIN becomes the IV, column
j from IVj, IV_VALID becomes 1, and nothing else changes (R267). -/
def Obligations.LoadivCommand : Prop :=
  ∀ (len : Nat) (s : State),
    (s.fault = true → exec (.cmdLoadiv len) s = .next s) ∧
    (s.fault = false → s.ctrl.mode = .ecb → exec (.cmdLoadiv len) s = .next s) ∧
    (s.fault = false → s.ctrl.mode = .cbc → s.ivValid = true →
      exec (.cmdLoadiv len) s = .next { s with errCode := .sequence }) ∧
    (s.fault = false → s.ctrl.mode = .cbc → s.ivValid = false → len ≠ 4 → exec (.cmdLoadiv len) s =
      .next { s with fault := true, errCode := .ivLength, outValid := false, dout := #v[0, 0, 0, 0] }) ∧
    (s.fault = false → s.ctrl.mode = .cbc → s.ivValid = false → len = 4 → exec (.cmdLoadiv len) s =
      .next { s with
        chain := ⟨unpack s.iv[0], unpack s.iv[1], unpack s.iv[2], unpack s.iv[3]⟩
        ivValid := true })

/-- BLOCK's checks in their order: no effect in the fatal state, then NO_KEY, then NO_IV; otherwise the block is
processed and OUT_VALID is 1 (R269). -/
def Obligations.BlockChecks : Prop :=
  ∀ s : State,
    (s.fault = true → exec .cmdBlock s = .next s) ∧
    (s.fault = false → s.keyValid = false → exec .cmdBlock s =
      .next { s with fault := true, errCode := .noKey, outValid := false, dout := #v[0, 0, 0, 0] }) ∧
    (s.fault = false → s.keyValid = true → s.ctrl.mode = .cbc → s.ivValid = false → exec .cmdBlock s =
      .next { s with fault := true, errCode := .noIv, outValid := false, dout := #v[0, 0, 0, 0] }) ∧
    (s.fault = false → s.keyValid = true → (s.ctrl.mode = .cbc → s.ivValid = true) →
      ∃ t, exec .cmdBlock s = .next t ∧ t.outValid = true ∧ t.fault = false)

/-- The ECB paths: the output is Cipher or InvCipher of the input block, CHAIN is neither read nor written, and nothing
else changes that the host can see (R272). S, CAP and the counters are free afterwards (log 6, 7). -/
def Obligations.BlockEcb : Prop :=
  ∀ s : State, BlockReady s → s.ctrl.mode = .ecb → ∃ d : Config.Datapath,
    exec .cmdBlock s = .next { s with
      dout := regsOfBlock
        (match s.ctrl.dir with
         | .encrypt => cipher s.w (10 + 2 * s.ctrl.ksz.toNat) (blockOfRegs s.din)
         | .decrypt => invCipher s.w (10 + 2 * s.ctrl.ksz.toNat) (blockOfRegs s.din))
      outValid := true
      phase := .idle
      dp := d
      draws := s.draws + 1 }

/-- CBC encryption: `Y = Cipher(X ^ CHAIN, W, Nr)` and then `CHAIN ← Y`; nothing else changes that the host can see
(R271). S, CAP and the counters are free afterwards (log 6, 7). -/
def Obligations.BlockCbcEncrypt : Prop :=
  ∀ s : State, BlockReady s → s.ctrl.mode = .cbc → s.ctrl.dir = .encrypt → ∃ (d : Config.Datapath) (y : Block),
    y = cipher s.w (10 + 2 * s.ctrl.ksz.toNat) ((blockOfRegs s.din).xor s.chain) ∧
    exec .cmdBlock s = .next { s with
      dout := regsOfBlock y
      chain := y
      outValid := true
      phase := .idle
      dp := d
      draws := s.draws + 1 }

/-- CBC decryption: `Y = InvCipher(X, W, Nr) ^ CHAIN` with the old CHAIN, and then `CHAIN ← X`; nothing else changes that
the host can see (R273). S, CAP and the counters are free afterwards (log 6, 7). -/
def Obligations.BlockCbcDecrypt : Prop :=
  ∀ s : State, BlockReady s → s.ctrl.mode = .cbc → s.ctrl.dir = .decrypt → ∃ d : Config.Datapath,
    exec .cmdBlock s = .next { s with
      dout := regsOfBlock
        ((invCipher s.w (10 + 2 * s.ctrl.ksz.toNat) (blockOfRegs s.din)).xor s.chain)
      chain := blockOfRegs s.din
      outValid := true
      phase := .idle
      dp := d
      draws := s.draws + 1 }

/-- CMD.CLEAR, in every state: every register takes its reset value, every STATUS bit is 0, and W, S and CAP are free
(R274, R64); the reset input has the same effect (R401). That it is an input between transactions which empties the port's
read data, and that the read data and what the host has yet to do are not CLEAR's to clear, is the model's choice (log 1,
2, 10). -/
def Obligations.ClearCommandAndResetInput : Prop :=
  (∀ (s : State) (rest : List HostEvent), s.inputs = .reset :: rest → ∃ t,
    exec .cmdClear { s with inputs := rest } = .next t ∧ step s = .next { t with rdata := none }) ∧
  ∀ s : State, ∃ (d : Config.Datapath) (w : Vector AesWord 60), exec .cmdClear s = .next
    { ctrl := ⟨0, .encrypt, .ecb⟩
      keyValid := false
      ivValid := false
      outValid := false
      fault := false
      busy := false
      errCode := .none
      rkidx := 0
      key := #v[0, 0, 0, 0, 0, 0, 0, 0]
      iv := #v[0, 0, 0, 0]
      din := #v[0, 0, 0, 0]
      dout := #v[0, 0, 0, 0]
      w := w
      chain := ⟨⟨0, 0, 0, 0⟩, ⟨0, 0, 0, 0⟩, ⟨0, 0, 0, 0⟩, ⟨0, 0, 0, 0⟩⟩
      phase := .idle
      dp := d
      rdata := s.rdata
      inputs := s.inputs
      draws := s.draws + 1 }

/-! ### What may change what (10_state, 60_exceptions) -/

/-- Entering the fatal state is exactly the update of Fatal(code), with a fatal code, and nothing else happens (R363,
R369). -/
def Obligations.FatalIsPrecise : Prop :=
  ∀ (i : Instr) (s t : State), exec i s = .next t → s.fault = false → t.fault = true →
    ∃ c : ErrorCode, (c.code = 1 ∨ c.code = 2 ∨ c.code = 3 ∨ c.code = 4 ∨ c.code = 5) ∧
      t = { s with fault := true, errCode := c, outValid := false, dout := #v[0, 0, 0, 0] }

/-- In the fatal state KEYEXP, LOADIV, BLOCK, the reserved opcodes and NOP have no effect, and every transaction but a
CTRL write and CLEAR leaves FAULT and the fatal code; these two and the reset input leave the fatal state, with FAULT = 0
and ERRCODE = 0 (R366, R365). -/
def Obligations.FatalStateIsLeftOnlyByCtrlClearOrReset : Prop :=
  (∀ s : State, (resetInput s).fault = false ∧ (resetInput s).errCode = .none) ∧
  ∀ (i : Instr) (s t : State), exec i s = .next t → s.fault = true →
    ((∃ len, i = .cmdKeyexp len) ∨ (∃ len, i = .cmdLoadiv len) ∨ i = .cmdBlock ∨ i ∈ reservedOpcodes ∨ i = .cmdNop →
      t = s) ∧
    (staysInRun i = true → t.fault = true ∧ t.errCode = s.errCode) ∧
    (staysInRun i = false → t.fault = false ∧ t.errCode = .none)

/-- STATUS.KEY_VALID is set only by a KEYEXP whose checks pass, cleared by a CTRL write, CLEAR and the reset input, and
changed by nothing else, Fatal among them (R42). -/
def Obligations.KeyValidRule : Prop :=
  (∀ (i : Instr) (s t : State), exec i s = .next t →
    (staysInRun i = false → t.keyValid = false) ∧
    (staysInRun i = true → s.keyValid = true → t.keyValid = true) ∧
    (s.keyValid = false → t.keyValid = true →
      i = .cmdKeyexp (nkOf s.ctrl.ksz) ∧ s.fault = false ∧ s.ctrl.ksz ≠ 3)) ∧
  ∀ s : State, (resetInput s).keyValid = false

/-- STATUS.IV_VALID is set only by a LOADIV in CBC mode that loads CHAIN, and cleared by a CTRL write, CLEAR and the
reset input; it is never 1 while CTRL.MODE = 0 (R43). -/
def Obligations.IvValidRule : Prop :=
  (∀ (i : Instr) (s t : State), exec i s = .next t →
    (staysInRun i = false → t.ivValid = false) ∧
    (staysInRun i = true → s.ivValid = true → t.ivValid = true) ∧
    (s.ivValid = false → t.ivValid = true →
      i = .cmdLoadiv 4 ∧ s.fault = false ∧ s.ctrl.mode = .cbc ∧ t.chain = blockOfRegs s.iv) ∧
    ((s.ivValid = true → s.ctrl.mode = .cbc) → t.ivValid = true → t.ctrl.mode = .cbc)) ∧
  State.reset.ivValid = false ∧ ∀ s : State, (resetInput s).ivValid = false

/-- STATUS.OUT_VALID is set by every BLOCK that produces output and by nothing else, cleared by a CTRL write, Fatal, CLEAR
and the reset input, and by nothing else (R44). -/
def Obligations.OutValidRule : Prop :=
  (∀ (i : Instr) (s t : State), exec i s = .next t →
    (staysInRun i = false → t.outValid = false) ∧
    (s.fault = false → t.fault = true → t.outValid = false) ∧
    (i = .cmdBlock → s.fault = false → s.keyValid = true → (s.ctrl.mode = .cbc → s.ivValid = true) →
      t.outValid = true) ∧
    (s.outValid = false → t.outValid = true →
      i = .cmdBlock ∧ s.fault = false ∧ s.keyValid = true ∧ (s.ctrl.mode = .cbc → s.ivValid = true)) ∧
    (s.outValid = true → t.outValid = false → staysInRun i = false ∨ s.fault = false ∧ t.fault = true)) ∧
  ∀ s : State, (resetInput s).outValid = false

/-- STATUS.ERRCODE is written only by a fatal error, by a non-fatal error while FAULT = 0, and by what ends a run, which
clears it; a non-fatal error changes nothing else (R47, R364). -/
def Obligations.ErrCodeRule : Prop :=
  (∀ (i : Instr) (s t : State), exec i s = .next t → t.errCode ≠ s.errCode →
    (staysInRun i = false ∧ t.errCode = .none) ∨
    (s.fault = false ∧ t.fault = true ∧ t.errCode.isFatal = true) ∨
    (s.fault = false ∧ (t.errCode = .illegalCmd ∨ t.errCode = .sequence) ∧ t = { s with errCode := t.errCode })) ∧
  (∀ (i : Instr) (s t : State), exec i s = .next t → staysInRun i = false → t.errCode = .none) ∧
  ∀ s : State, (resetInput s).errCode = .none

/-- CHAIN is written only by a LOADIV or a BLOCK in CBC mode, and zeroed by what ends a run (R59, R266, R276). -/
def Obligations.ChainWrittenOnlyByLoadivBlockAndRunStart : Prop :=
  ∀ (i : Instr) (s t : State), exec i s = .next t →
    (staysInRun i = false → t.chain = Block.zero) ∧
    (staysInRun i = true → t.chain ≠ s.chain →
      s.ctrl.mode = .cbc ∧ s.fault = false ∧
        ((i = .cmdLoadiv 4 ∧ s.ivValid = false ∧ t.chain = blockOfRegs s.iv) ∨
          (i = .cmdBlock ∧ t.chain = blockOfRegs (match s.ctrl.dir with | .encrypt => t.dout | .decrypt => s.din))))

/-- W is written only by a successful KEYEXP, and only while KEY_VALID = 0; its words from NW on keep their values. CLEAR
alone leaves W unspecified (R57, R88). -/
def Obligations.ScheduleWrittenOnlyByKeyexp : Prop :=
  ∀ (i : Instr) (s t : State), exec i s = .next t → i ≠ .cmdClear → t.w ≠ s.w →
    i = .cmdKeyexp (nkOf s.ctrl.ksz) ∧ s.fault = false ∧ s.keyValid = false ∧ t.keyValid = true ∧
      ∀ k, nwOf s.ctrl.ksz ≤ k → k < 60 → scheduleWord t.w k = scheduleWord s.w k

/-- DOUT is written only by BLOCK, and zeroed by a CTRL write, Fatal and CLEAR (R55). -/
def Obligations.OutputWrittenOnlyByBlock : Prop :=
  ∀ (i : Instr) (s t : State), exec i s = .next t → t.dout ≠ s.dout →
    (i = .cmdBlock ∧ t.outValid = true) ∨
    (t.dout = #v[0, 0, 0, 0] ∧ (staysInRun i = false ∨ s.fault = false ∧ t.fault = true))

/-- KEY, IV, DIN and RKIDX are changed only by the host's writes of them and by CLEAR, and CTRL only by a CTRL write and
CLEAR: no command writes an operand register (R50, R52, R53, R54, R86). -/
def Obligations.OperandRegistersWrittenOnlyByTheHost : Prop :=
  ∀ (i : Instr) (s t : State), exec i s = .next t → i ≠ .cmdClear →
    (t.key ≠ s.key → ∃ j v, i = .wrKey j v) ∧
    (t.iv ≠ s.iv → ∃ j v, i = .wrIv j v) ∧
    (t.din ≠ s.din → ∃ j v, i = .wrDin j v) ∧
    (t.rkidx ≠ s.rkidx → ∃ x, i = .wrRkidx x) ∧
    (t.ctrl ≠ s.ctrl → ∃ ksz dir mode, i = .wrCtrl ksz dir mode)

/-- While KEY_VALID is 1, the schedule is that of the key which KEYEXP expanded: whatever the host does after a
successful KEYEXP, until the run ends, W keeps the words of that expansion and KEY_VALID stays 1 (R63 (a), R88). -/
def Obligations.ScheduleStaysThroughTheRun : Prop :=
  ∀ (is : List Instr) (s t : State), (∀ i ∈ is, staysInRun i = true) →
    s.fault = false → s.keyValid = false → s.ctrl.ksz ≠ 3 → exec (.cmdKeyexp (nkOf s.ctrl.ksz)) s = .next t →
      (afterAll is t).keyValid = true ∧
        (afterAll is t).w =
          keyExpansion (nkOf s.ctrl.ksz) (nwOf s.ctrl.ksz) (s.key.map unpack) s.w

/-- Every fatal error of a run is raised before the first successful BLOCK of that run: after a BLOCK that succeeds, the
host can do nothing within the run that sets FAULT (R368). -/
def Obligations.NoFatalErrorAfterTheFirstBlock : Prop :=
  ∀ (is : List Instr) (s t : State), (∀ i ∈ is, staysInRun i = true) → exec .cmdBlock s = .next t →
    s.fault = false → t.fault = false → (afterAll is t).fault = false

/-! ### Invariants (10_state R63) -/

/-- The reset state meets the invariants (R63, R64), and those that R368 rests on. -/
def Obligations.ResetMeetsTheInvariants : Prop :=
  Inv State.reset ∧ RunInv State.reset

/-- Every step keeps the invariants (a) to (g) of R63, and it keeps those that R368 rests on, with the phase IDLE between
transactions (R61). -/
def Obligations.StepKeepsTheInvariants : Prop :=
  ∀ s s' : State, step s = .next s' → (Inv s → Inv s') ∧ (RunInv s → RunInv s')

/-- "No observation may depend on" what is unspecified: two states that the host cannot tell apart step to two states
that the host cannot tell apart, with the same read data (R64, R278). The premise on the key size is R63 (a), the one
on BUSY is R63 (g). -/
def Obligations.UnspecifiedStateIsNotObservable : Prop :=
  ∀ s t : State, LookAlike s t → s.busy = false → (s.keyValid = true → s.ctrl.ksz ≠ 3) →
    ∃ s' t', step s = .next s' ∧ step t = .next t' ∧ LookAlike s' t'

/-! ### Tables and transforms (40 to 42) -/

/-- The product is that of a field: commutative and associative, distributing over XOR, with 0 and 1 (R142), and every byte
but 0 has an inverse (R149 takes it). -/
def Obligations.ProductIsThatOfAField : Prop :=
  ∀ a b c : Byte, gmul a b = gmul b a ∧ gmul (gmul a b) c = gmul a (gmul b c) ∧
    gmul a (b ^^^ c) = gmul a b ^^^ gmul a c ∧ gmul 0 b = 0 ∧ gmul 1 b = b ∧
    (b ≠ 0 → ∃ g : Byte, gmul b g = 1)

/-- The multiplication tables hold the products, MUL2 is xtime and MUL3[b] is xtime(b) ^ b (R144); RCON[1] is 1 and each
next constant is xtime of the one before (R146). -/
def Obligations.TablesHoldTheProducts : Prop :=
  (∀ b : Byte, ∀ c ∈ ([2, 3, 9, 11, 13, 14] : List Byte), mulTable c b = gmul c b) ∧
  (∀ b : Byte, mulTable 2 b = xtime b ∧ mulTable 3 b = xtime b ^^^ b) ∧
  rcon 1 = 1 ∧ ∀ j : Fin 9, rcon (j.val + 2) = xtime (rcon (j.val + 1))

/-- SBOX is what the construction gives, bit by bit, from the inverse in the field (R149), and INVSBOX is its inverse
permutation (R150). -/
def Obligations.SubstitutionBoxes : Prop :=
  ∀ b : Byte, (∃ g : Byte, (b = 0 → g = 0) ∧ (b ≠ 0 → gmul b g = 1) ∧
      ∀ k : Fin 8, (sbox b).getLsbD k.val =
        (g.getLsbD k.val ^^ g.getLsbD ((k.val + 4) % 8) ^^ g.getLsbD ((k.val + 5) % 8) ^^
          g.getLsbD ((k.val + 6) % 8) ^^ g.getLsbD ((k.val + 7) % 8) ^^ (0x63 : Byte).getLsbD k.val)) ∧
    invSbox (sbox b) = b ∧ sbox (invSbox b) = b

/-- The forward transforms byte by byte, MixColumns both as the matrix product and through the tables (R171 to R174,
R151). -/
def Obligations.ForwardTransforms : Prop :=
  ∀ (s : Block) (w : Vector AesWord 60) (c : Fin 4) (k : Fin 15),
    (∀ r : Fin 4, (subBytes s).at r c = sbox (s.at r c)) ∧
    (∀ r : Fin 4, (shiftRows s).at r c = s.at r ⟨(c.val + r.val) % 4, Nat.mod_lt _ (by decide)⟩) ∧
    (∀ r : Fin 4, (addRoundKey w k.val s).at r c = s.at r c ^^^ (scheduleWord w (4 * k.val + c.val)).get r) ∧
    (mixColumns s).at 0 c = gmul 2 (s.at 0 c) ^^^ gmul 3 (s.at 1 c) ^^^ s.at 2 c ^^^ s.at 3 c ∧
    (mixColumns s).at 1 c = s.at 0 c ^^^ gmul 2 (s.at 1 c) ^^^ gmul 3 (s.at 2 c) ^^^ s.at 3 c ∧
    (mixColumns s).at 2 c = s.at 0 c ^^^ s.at 1 c ^^^ gmul 2 (s.at 2 c) ^^^ gmul 3 (s.at 3 c) ∧
    (mixColumns s).at 3 c = gmul 3 (s.at 0 c) ^^^ s.at 1 c ^^^ s.at 2 c ^^^ gmul 2 (s.at 3 c) ∧
    (mixColumns s).col c = mixColumnTables (s.col c)

/-- The inverse transforms byte by byte, InvMixColumns both as the matrix product and through the tables (R191, R192,
R194, R152). -/
def Obligations.InverseTransforms : Prop :=
  ∀ (s : Block) (c : Fin 4),
    (∀ r : Fin 4, (invSubBytes s).at r c = invSbox (s.at r c)) ∧
    (∀ r : Fin 4, (invShiftRows s).at r c = s.at r ⟨(c.val + (4 - r.val)) % 4, Nat.mod_lt _ (by decide)⟩) ∧
    (invMixColumns s).at 0 c = gmul 14 (s.at 0 c) ^^^ gmul 11 (s.at 1 c) ^^^ gmul 13 (s.at 2 c) ^^^ gmul 9 (s.at 3 c) ∧
    (invMixColumns s).at 1 c = gmul 9 (s.at 0 c) ^^^ gmul 14 (s.at 1 c) ^^^ gmul 11 (s.at 2 c) ^^^ gmul 13 (s.at 3 c) ∧
    (invMixColumns s).at 2 c = gmul 13 (s.at 0 c) ^^^ gmul 9 (s.at 1 c) ^^^ gmul 14 (s.at 2 c) ^^^ gmul 11 (s.at 3 c) ∧
    (invMixColumns s).at 3 c = gmul 11 (s.at 0 c) ^^^ gmul 13 (s.at 1 c) ^^^ gmul 9 (s.at 2 c) ^^^ gmul 14 (s.at 3 c) ∧
    (invMixColumns s).col c = invMixColumnTables (s.col c)

/-- Each inverse transform undoes its transform, in both orders (R195). -/
def Obligations.InverseLaws : Prop :=
  ∀ (x : Block) (w : Vector AesWord 60) (k : Nat),
    invSubBytes (subBytes x) = x ∧ subBytes (invSubBytes x) = x ∧
    invShiftRows (shiftRows x) = x ∧ shiftRows (invShiftRows x) = x ∧
    invMixColumns (mixColumns x) = x ∧ mixColumns (invMixColumns x) = x ∧
    addRoundKey w k (addRoundKey w k x) = x

/-! ### The block cipher and runs (44, 45) -/

/-- Cipher and InvCipher are Listings BC-1 and BC-2, written as loops over the round indices (R241 to R245). -/
def Obligations.CipherFollowsItsListings : Prop :=
  ∀ (w : Vector AesWord 60) (nr : Nat) (x : Block), 1 ≤ nr →
    cipher w nr x =
      addRoundKey w nr (shiftRows (subBytes ((List.range (nr - 1)).foldl
        (fun s i => addRoundKey w (i + 1) (mixColumns (shiftRows (subBytes s)))) (addRoundKey w 0 x)))) ∧
    invCipher w nr x =
      addRoundKey w 0 (invSubBytes (invShiftRows ((List.range (nr - 1)).foldl
        (fun s i => invMixColumns (addRoundKey w (nr - 1 - i) (invSubBytes (invShiftRows s))))
        (addRoundKey w nr x))))

/-- Cipher is a bijection on blocks, with InvCipher its inverse, for every schedule and every number of rounds of the
three key sizes (R246). -/
def Obligations.InvCipherUndoesCipher : Prop :=
  ∀ (w : Vector AesWord 60) (nr : Nat) (x : Block), nr = 10 ∨ nr = 12 ∨ nr = 14 →
    invCipher w nr (cipher w nr x) = x ∧ cipher w nr (invCipher w nr x) = x

/-- The known answers for 128-, 192- and 256-bit keys, each by a whole encryption run from reset on the plaintext
00112233445566778899AABBCCDDEEFF (R248). -/
def Obligations.KnownAnswers : Prop :=
  let key : Vector Word 8 := #v[0x00010203, 0x04050607, 0x08090A0B, 0x0C0D0E0F, 0x10111213, 0x14151617, 0x18191A1B,
    0x1C1D1E1F]
  let x : Block := blockOfRegs #v[0x00112233, 0x44556677, 0x8899AABB, 0xCCDDEEFF]
  let result (ksz : BitVec 2) : Vector Word 4 :=
    (afterAll (startOfRun ksz .encrypt .ecb key zeroRegs ++ feedBlock x) State.reset).dout
  result 0 = #v[0x69C4E0D8, 0x6A7B0430, 0xD8CDB780, 0x70B4C55A] ∧
  result 1 = #v[0xDDA97CA4, 0x864CDFE0, 0x6EAF70A0, 0xEC0D7191] ∧
  result 2 = #v[0x8EA2B7CA, 0x516745BF, 0xEAFC4990, 0x4B496089]

/-- Round trip of whole runs, in both modes and for the three key sizes: a decryption run with the key and IV of an
encryption run, fed its outputs, outputs its inputs, whatever the states in which the two runs start (R275, R246). -/
def Obligations.RunRoundTrip : Prop :=
  ∀ (ksz : BitVec 2) (mode : ChainMode) (key : Vector Word 8) (iv : Vector Word 4) (xs : List Block) (s s' : State),
    ksz ≠ 3 →
      outputs (outputs xs (afterAll (startOfRun ksz .encrypt mode key iv) s))
        (afterAll (startOfRun ksz .decrypt mode key iv) s') = xs

/-- CBC error propagation: changing one ciphertext block by Δ changes that block's decryption to InvCipher of the changed
block XOR the ciphertext block before it (CHAIN, for the first block of the stream), flips exactly Δ in the next, and
leaves every other output as it was; at the end of a stream there is no next (R277). -/
def Obligations.CbcErrorPropagation : Prop :=
  ∀ (s : State) (pre post : List Block) (c d delta : Block), BlockReady s → s.ctrl.mode = .cbc →
    s.ctrl.dir = .decrypt →
    let dec (x : Block) : Block := invCipher s.w (10 + 2 * s.ctrl.ksz.toNat) x
    let prev : Block := pre.getLastD s.chain
    ∃ a b : List Block, a.length = pre.length ∧ b.length = post.length ∧
      outputs (pre ++ c :: d :: post) s = a ++ (dec c).xor prev :: (dec d).xor c :: b ∧
      outputs (pre ++ c.xor delta :: d :: post) s =
        a ++ (dec (c.xor delta)).xor prev :: ((dec d).xor c).xor delta :: b ∧
      outputs (pre ++ [c]) s = a ++ [(dec c).xor prev] ∧
      outputs (pre ++ [c.xor delta]) s = a ++ [(dec (c.xor delta)).xor prev]

/-! ### Implementations with latencies (10_state R46, 20_memory R72, 70_reset_and_hazards R400 R410 R411) -/

/-- The atomic view holds for a host that polls: an implementation of any latencies and the one in which every command ends
within its transaction go through the same states but for BUSY, and every read but that of STATUS returns the same
value (R72, R410, R415; that a command's effect is applied at once and BUSY held afterwards is log 14). -/
def Obligations.LatencyIsNotObservable : Prop :=
  ∀ (p : Timing.Params) (m : Timing.Impl) (es : List Timing.PinEvent), Timing.Polite p m es →
    let z : Timing.Impl := { m with core := { m.core with busy := false }, left := 0 }
    Timing.untimed (Timing.run p m es).core = Timing.untimed (Timing.run (Timing.zeroLatency p) z es).core ∧
    ∀ t : Transaction, Timing.Polite p m (es ++ [.transaction t]) → decode t ≠ .rdStatus →
      (Timing.run p m es).inReset = false →
      (Timing.run p m (es ++ [.transaction t])).core.rdata =
        (Timing.run (Timing.zeroLatency p) z (es ++ [.transaction t])).core.rdata

/-- BUSY is 1 exactly while a command still holds it: at the start of a command's latency, at every cycle of it and not
after it, and a register access other than KEYEXP, LOADIV, BLOCK and CLEAR sets no BUSY (R46, R410). That BUSY is held
from the moment a command is issued (log 14), and for the whole latency also by a command that is refused, that faults or
that does nothing (log 16), is the model's choice. -/
def Obligations.BusyLastsForTheLatency : Prop :=
  ∀ (p : Timing.Params) (m : Timing.Impl) (t : Transaction) (n : Nat), m.core.busy = false → m.inReset = false →
    let lat : Nat :=
      match decode t with
      | .cmdKeyexp _ => p.lat.keyexp
      | .cmdLoadiv _ => p.lat.loadiv
      | .cmdBlock => p.lat.block (nrOf m.core.ctrl.ksz) m.core.ctrl.dir
      | .cmdClear => p.lat.clear
      | _ => 0
    (Timing.run p m (.transaction t :: List.replicate n .cycle)).core.busy = decide (n < lat)

/-- In reset the port accepts no transaction and the core holds its reset values; a reset asserted while a command executes
aborts it, with BUSY = 0 and the sequencer IDLE, and none of the command's effects survive; when reset is deasserted the
core is still as reset left it (R400; that synchrony has no effect is log 17). -/
def Obligations.ResetAbortsACommand : Prop :=
  ∀ (p : Timing.Params) (m : Timing.Impl) (level : Bool) (ts : List Transaction), Timing.asserted p.style level = true →
    let m' := Timing.run p m (.rst level :: ts.map .transaction)
    let m'' := Timing.pinStep p m' (.rst (!level))
    m''.inReset = false ∧ m''.core = m'.core ∧ m'.inReset = true ∧ m'.left = 0 ∧ m'.core.busy = false ∧ m'.core.phase = .idle ∧
      m'.core = { State.reset with
        w := m'.core.w
        dp := m'.core.dp
        inputs := m.core.inputs
        draws := m.core.draws + 1 }

/-! ### The host text adapter (47_host_text_adapter) and the assembler (30_encoding) -/

/-- A block line with a character outside `[0-9A-F]` is skipped: no transaction, no output line, and every later line is
processed as if it were not there (R336). -/
def Obligations.MalformedLinesAreSkipped : Prop :=
  ∀ (pol : Adapter.Policies) (pre post : List Adapter.Line) (l : Adapter.Line) (s : State) (out : List Byte),
    (∃ b ∈ l, ¬ (0x30 ≤ b.toNat ∧ b.toNat ≤ 0x39 ∨ 0x41 ≤ b.toNat ∧ b.toNat ≤ 0x46)) →
      Adapter.blockLines pol (pre ++ l :: post) s out = Adapter.blockLines pol (pre ++ post) s out

/-- A block line of 1 to 32 data characters is the block whose 128-bit value the line spells, so shorter lines are
zero-padded on the left (R337). -/
def Obligations.ShortLinesAreZeroPadded : Prop :=
  ∀ (pol : Adapter.Policies) (l : Adapter.Line), l.all Adapter.isBlockChar = true → 1 ≤ l.length → l.length ≤ 32 →
    ∃ d : Adapter.Line, Adapter.lineUse pol l = .block d ∧
      ((Adapter.group d 0 ++ Adapter.group d 1 ++ Adapter.group d 2 ++ Adapter.group d 3 : BitVec (32 + 32 + 32 + 32)).toNat) =
        l.foldl (fun acc b => 16 * acc + Adapter.digitValue b) 0

/-- A configuration error is reported before any block line is processed and with no output; once the blocks are reached no
core error arises, and FAULT is 0 at the end (R335, R342). -/
def Obligations.ConfigurationErrorsComeBeforeOutput : Prop :=
  ∀ (cfg : Adapter.AdapterConfig) (pol : Adapter.Policies) (input : List Byte) (s : State), s.busy = false →
    let o := Adapter.adapter cfg pol input s
    ((∃ e, o.error = some e ∧ e ≠ .longLine) → o.output = []) ∧
    (o.error = none ∨ o.error = some .longLine → o.core.fault = false ∧ o.core.keyValid = true)

/-- The pseudo-instructions expand to the transactions of their table, in order, an LDKEY operand of another length than
32, 48 or 64 digits to none, and digit group j is the value of register j (R116, R117). -/
def Obligations.PseudoInstructionsExpand : Prop :=
  (∀ (ksz : Fin 3) (dir : Direction) (mode : ChainMode), Assembler.expand (.cfg ksz dir mode) =
    some [encode (.wrCtrl (BitVec.ofNat 2 ksz.val) dir mode)]) ∧
  (∀ d : Assembler.Digits, d.length = 32 ∨ d.length = 48 ∨ d.length = 64 → (Assembler.expand (.ldkey d)).map (List.map decode) =
    some (((List.finRange 8).filter (fun j => j.val < d.length / 8)).map (fun j => .wrKey j (Assembler.digitGroup d j.val)) ++
      [.cmdKeyexp (d.length / 8)])) ∧
  (∀ d : Assembler.Digits, d.length ≠ 32 → d.length ≠ 48 → d.length ≠ 64 → Assembler.expand (.ldkey d) = none) ∧
  (∀ d : Assembler.Digits, d.length = 32 → (Assembler.expand (.ldiv d)).map (List.map decode) =
    some ((List.finRange 4).map (fun j => .wrIv j (Assembler.digitGroup d j.val)) ++ [.cmdLoadiv 4])) ∧
  (∀ d : Assembler.Digits, d.length = 32 → (Assembler.expand (.xblk d)).map (List.map decode) =
    some ((List.finRange 4).map (fun j => .wrDin j (Assembler.digitGroup d j.val)) ++ [.cmdBlock] ++
      (List.finRange 4).map .rdDout)) ∧
  (∀ i : Word, (Assembler.expand (.rdks i)).map (List.map decode) =
    some [.wrRkidx (i.extractLsb' 0 6), .rdRkdata]) ∧
  (Assembler.expand .poll).map (List.map decode) = some [.rdStatus] ∧
  ∀ (d : Assembler.Digits) (j k : Nat), k < 8 → ∀ h : 8 * j + 8 ≤ d.length, ∀ hk : 8 * j + k < d.length,
    (Assembler.digitGroup d j).extractLsb' (4 * (7 - k)) 4 = d[8 * j + k]
end

