-- ==== Sys2Proof/Laws/Bytes.lean ====
section
/-! SUPPORT. Laws of words and blocks: indexing, exclusive-or, and the packing on the port. -/

namespace Sys2Proof

/-! ### Indexing -/

@[simp] theorem AesWord.get_ofFn (f : Fin 4 → Byte) (i : Fin 4) : (AesWord.ofFn f).get i = f i := by
  fin_cases i <;> rfl

@[simp] theorem Block.col_ofCols (f : Fin 4 → AesWord) (c : Fin 4) : (Block.ofCols f).col c = f c := by
  fin_cases c <;> rfl

@[simp] theorem Block.at_ofFn (f : Fin 4 → Fin 4 → Byte) (r c : Fin 4) : (Block.ofFn f).at r c = f r c := by
  simp [Block.at, Block.ofFn]

theorem AesWord.ext_get {a b : AesWord} (h : ∀ i, a.get i = b.get i) : a = b :=
  AesWord.ext (h 0) (h 1) (h 2) (h 3)

theorem Block.ext_col {a b : Block} (h : ∀ c, a.col c = b.col c) : a = b :=
  Block.ext (h 0) (h 1) (h 2) (h 3)

theorem Block.ext_at {a b : Block} (h : ∀ r c, a.at r c = b.at r c) : a = b :=
  Block.ext_col fun c => AesWord.ext_get fun r => h r c

@[simp] theorem AesWord.get_xor (a b : AesWord) (i : Fin 4) : (a.xor b).get i = a.get i ^^^ b.get i := by
  fin_cases i <;> rfl

@[simp] theorem Block.col_xor (a b : Block) (c : Fin 4) : (a.xor b).col c = (a.col c).xor (b.col c) := by
  fin_cases c <;> rfl

@[simp] theorem Block.at_xor (a b : Block) (r c : Fin 4) : (a.xor b).at r c = a.at r c ^^^ b.at r c := by
  simp [Block.at]

/-! ### Exclusive-or -/

@[simp] theorem Block.xor_xor_cancel (a k : Block) : (a.xor k).xor k = a :=
  Block.ext_at fun r c => by simp

theorem Block.xor_comm (a b : Block) : a.xor b = b.xor a :=
  Block.ext_at fun r c => by simp [BitVec.xor_comm]

theorem Block.xor_assoc (a b c : Block) : (a.xor b).xor c = a.xor (b.xor c) :=
  Block.ext_at fun r k => by simp [BitVec.xor_assoc]

@[simp] theorem Block.xor_zero (a : Block) : a.xor Block.zero = a :=
  Block.ext_at fun r c => by fin_cases r <;> fin_cases c <;> simp [Block.at, Block.col, AesWord.get, Block.zero,
    AesWord.zero, Block.xor, AesWord.xor]

/-! ### Packing -/

/-- Bit i of a packed word: byte 3 is in bits 7:0 and byte 0 in bits 31:24 (R76). -/
theorem getLsbD_pack (w : AesWord) (i : Nat) :
    (pack w).getLsbD i =
      if i < 8 then w.b3.getLsbD i
      else if i < 16 then w.b2.getLsbD (i - 8)
      else if i < 24 then w.b1.getLsbD (i - 16)
      else w.b0.getLsbD (i - 24) := by
  change BitVec.getLsbD (w := 8 + 8 + 8 + 8) (w.b0 ++ w.b1 ++ w.b2 ++ w.b3) i = _
  simp only [BitVec.getLsbD_append, Nat.sub_sub]
  by_cases h1 : i < 8
  · simp [h1]
  · by_cases h2 : i < 16
    · simp [h1, h2, show i - 8 < 8 by omega]
    · by_cases h3 : i < 24
      · simp [h1, h2, h3, show ¬ i - 8 < 8 by omega, show i - 16 < 8 by omega]
      · simp [h1, h2, h3, show ¬ i - 8 < 8 by omega, show ¬ i - 16 < 8 by omega]

@[simp] theorem unpack_pack (w : AesWord) : unpack (pack w) = w := by
  apply AesWord.ext <;> apply BitVec.eq_of_getLsbD_eq <;> intro i hi <;>
    simp only [unpack, BitVec.getLsbD_extractLsb', getLsbD_pack, hi, decide_true, Bool.true_and]
  · rw [if_neg (by omega), if_neg (by omega), if_neg (by omega)]; congr 1; omega
  · rw [if_neg (by omega), if_neg (by omega), if_pos (by omega)]; congr 1; omega
  · rw [if_neg (by omega), if_pos (by omega)]; congr 1; omega
  · rw [if_pos (by omega)]; congr 1; omega

@[simp] theorem pack_unpack (v : Word) : pack (unpack v) = v := by
  apply BitVec.eq_of_getLsbD_eq
  intro i hi
  simp only [getLsbD_pack, unpack, BitVec.getLsbD_extractLsb']
  split
  · simp_all
  · split
    · rw [show (8 + (i - 8)) = i by omega]; simp [show i - 8 < 8 by omega]
    · split
      · rw [show (16 + (i - 16)) = i by omega]; simp [show i - 16 < 8 by omega]
      · rw [show (24 + (i - 24)) = i by omega]; simp [show i - 24 < 8 by omega]

@[simp] theorem blockOfRegs_regsOfBlock (b : Block) : blockOfRegs (regsOfBlock b) = b := by
  simp [blockOfRegs, regsOfBlock]

end Sys2Proof
end

