-- ==== Sys2Proof/Laws/Sequencer.lean ====
section
/-! SUPPORT. What the sequencer computes inside a command: the key expander's words are those of Listing KX-1, the
round pipelines' results are Cipher and InvCipher. Each `run…_eq` says all that the run does; callers cite it. -/

namespace Sys2Proof.Machine

open Config (Datapath)

/-! ### The key-size parameters -/

/-- The three legal key sizes (R35). -/
theorem ksz_cases {k : BitVec 2} (h : k ≠ 3) : k = 0 ∨ k = 1 ∨ k = 2 := by
  revert k; decide

/-- "Nr = 6 + Nk" and "NW = 4·(Nr+1)" (R9, R10). -/
theorem nrOf_nwOf {k : BitVec 2} (h : k ≠ 3) : nrOf k = 6 + nkOf k ∧ nwOf k = 4 * (nrOf k + 1) := by
  revert k; decide

theorem nrOf_le (k : BitVec 2) : nrOf k ≤ 14 := by
  revert k; decide

theorem nrOf_pos {k : BitVec 2} (h : k ≠ 3) : 1 ≤ nrOf k := by
  revert k; decide

theorem val_ofNat_of_lt {m n : Nat} [NeZero m] (h : n < m) : (Fin.ofNat m n).val = n := by
  simpa [Fin.ofNat] using Nat.mod_eq_of_lt h

/-! ### The forward pipeline -/

/-- After n + 1 steps of Cipher, while n < Nr, the counter is at n + 1 and S has gone through n full rounds. -/
theorem cipherAdvance_iterate (w : Vector AesWord 60) (nr : Nat) (hle : nr ≤ 14) (d : Datapath) (n : Nat)
    (hn : n < nr) :
    ∃ snap, (cipherAdvance w nr)^[n + 1] { d with round := 0 } =
      { d with snapshot := snap, s := fullRounds w n (addRoundKey w 0 d.s), round := Fin.ofNat 15 (n + 1) } := by
  induction n with
  | zero => exact ⟨d.snapshot, rfl⟩
  | succ n ih =>
    obtain ⟨snap, h⟩ := ih (by omega)
    refine ⟨shiftRows (subBytes (fullRounds w n (addRoundKey w 0 d.s))), ?_⟩
    rw [Function.iterate_succ_apply', h]
    simp only [cipherAdvance, val_ofNat_of_lt (show n + 1 < 15 by omega), if_neg (Nat.succ_ne_zero n), if_pos hn]
    rfl

/-- Cipher leaves its result in S and changes nothing outside the datapath (R240, R241). -/
theorem runCipher_eq (s : State) (h : s.ctrl.ksz ≠ 3) :
    ∃ snap r, runCipher s =
      { s with
        phase := .cipher
        dp := { s.dp with snapshot := snap, s := cipher s.w (nrOf s.ctrl.ksz) s.dp.s, round := r } } := by
  have hp := nrOf_pos h
  have hle := nrOf_le s.ctrl.ksz
  obtain ⟨snap, hs⟩ := cipherAdvance_iterate s.w _ hle s.dp (nrOf s.ctrl.ksz - 1) (by omega)
  rw [show nrOf s.ctrl.ksz - 1 + 1 = nrOf s.ctrl.ksz by omega] at hs
  refine ⟨snap, Fin.ofNat 15 (nrOf s.ctrl.ksz), ?_⟩
  rw [runCipher, Function.iterate_succ_apply', hs]
  simp only [cipherAdvance, val_ofNat_of_lt (show nrOf s.ctrl.ksz < 15 by omega), lt_irrefl,
    if_neg (show ¬ nrOf s.ctrl.ksz = 0 by omega), if_false]
  rfl

/-! ### The inverse pipeline -/

/-- After n + 1 steps of InvCipher, while n < Nr, the counter is at Nr − 1 − n, and the full rounds still to come give
the result from S. -/
theorem invCipherAdvance_iterate (w : Vector AesWord 60) (nr : Nat) (hle : nr ≤ 14) (d : Datapath) (n : Nat)
    (hn : n < nr) :
    ∃ snap sreg, (invCipherAdvance w nr)^[n + 1] { d with round := Fin.ofNat 15 nr } =
        { d with snapshot := snap, s := sreg, round := Fin.ofNat 15 (nr - 1 - n) } ∧
      invFullRounds w (nr - 1 - n) sreg = invFullRounds w (nr - 1) (addRoundKey w nr d.s) := by
  induction n with
  | zero =>
    refine ⟨d.snapshot, addRoundKey w nr d.s, ?_, rfl⟩
    simp only [Function.iterate_succ_apply', Function.iterate_zero_apply, invCipherAdvance,
      val_ofNat_of_lt (show nr < 15 by omega), if_true, Nat.sub_zero]
  | succ n ih =>
    obtain ⟨snap, sreg, h, hres⟩ := ih (by omega)
    refine ⟨addRoundKey w (nr - 1 - n) (invSubBytes (invShiftRows sreg)), invFullRound w (nr - 1 - n) sreg, ?_, ?_⟩
    · rw [Function.iterate_succ_apply', h]
      simp only [invCipherAdvance, val_ofNat_of_lt (show nr - 1 - n < 15 by omega),
        if_neg (show ¬ nr - 1 - n = nr by omega), if_pos (show nr - 1 - n ≠ 0 by omega), invFullRound]
      rw [show nr - 1 - n - 1 = nr - 1 - (n + 1) by omega]
    · rw [← hres, show nr - 1 - n = nr - 1 - (n + 1) + 1 by omega]
      rfl

/-- InvCipher leaves its result in S and changes nothing outside the datapath (R240, R244). -/
theorem runInvCipher_eq (s : State) (h : s.ctrl.ksz ≠ 3) :
    ∃ snap r, runInvCipher s =
      { s with
        phase := .invCipher
        dp := { s.dp with snapshot := snap, s := invCipher s.w (nrOf s.ctrl.ksz) s.dp.s, round := r } } := by
  have hp := nrOf_pos h
  have hle := nrOf_le s.ctrl.ksz
  obtain ⟨snap, sreg, hs, hres⟩ := invCipherAdvance_iterate s.w _ hle s.dp (nrOf s.ctrl.ksz - 1) (by omega)
  rw [show nrOf s.ctrl.ksz - 1 + 1 = nrOf s.ctrl.ksz by omega, Nat.sub_self] at hs
  rw [Nat.sub_self] at hres
  simp only [invFullRounds] at hres
  subst hres
  refine ⟨snap, 0, ?_⟩
  rw [runInvCipher, Function.iterate_succ_apply', hs]
  simp only [invCipherAdvance, val_ofNat_of_lt (show 0 < 15 by omega),
    if_neg (show ¬ 0 = nrOf s.ctrl.ksz by omega), ne_eq, not_true_eq_false, if_false]
  rfl

/-! ### The key expander -/

/-- The index of the round constant the next core step consumes, from word i on (R213). -/
def rconAt (nk i : Nat) : Nat := (i + nk - 1) / nk

/-- What the three key sizes fix for the expander. -/
theorem nkOf_nwOf_cases {k : BitVec 2} (h : k ≠ 3) :
    (nkOf k = 4 ∧ nwOf k = 44) ∨ (nkOf k = 6 ∧ nwOf k = 52) ∨ (nkOf k = 8 ∧ nwOf k = 60) := by
  revert k; decide

/-- At the expander's counters the word t is that of Listing KX-1: the next round constant is RCON[i / Nk] (R213). -/
theorem expandTemp_rconAt {nk : Nat} (hk : nk = 4 ∨ nk = 6 ∨ nk = 8) (i : Nat) (prev : AesWord) :
    expandTemp nk i (rconAt nk i) prev = scheduleTemp nk i prev := by
  simp only [expandTemp, scheduleTemp]
  split
  · rename_i h0
    rw [show rconAt nk i = i / nk by
      simp only [rconAt]; rcases hk with e | e | e <;> subst e <;> omega]
  · rfl

/-- The counters after a word. -/
theorem expandCounters_rconAt {nk : Nat} (hk : nk = 4 ∨ nk = 6 ∨ nk = 8) (d : Datapath) (i : Nat) (hi : i < 60)
    (hj : rconAt nk i < 12) :
    expandCounters nk { d with wordIndex := Fin.ofNat 60 i, rconIndex := Fin.ofNat 12 (rconAt nk i) } =
      { d with wordIndex := Fin.ofNat 60 (i + 1), rconIndex := Fin.ofNat 12 (rconAt nk (i + 1)) } := by
  simp only [expandCounters, val_ofNat_of_lt hi, val_ofNat_of_lt hj]
  congr 1
  split <;> rename_i h0 <;> congr 1 <;> simp only [rconAt] <;> rcases hk with e | e | e <;> subst e <;> omega

/-- After n words of the expander the counters are at the next word, and the words still to come give the schedule of
Listing KX-1. -/
theorem expandAdvance_iterate (s : State) (h : s.ctrl.ksz ≠ 3) (n : Nat)
    (hn : n ≤ nwOf s.ctrl.ksz - nkOf s.ctrl.ksz) :
    ∃ w, (expandAdvance (nkOf s.ctrl.ksz))^[n] (startExpand s) =
      (w, { s.dp with
        wordIndex := Fin.ofNat 60 (nkOf s.ctrl.ksz + n)
        rconIndex := Fin.ofNat 12 (rconAt (nkOf s.ctrl.ksz) (nkOf s.ctrl.ksz + n)) }) ∧
      expandFrom (nkOf s.ctrl.ksz) (nwOf s.ctrl.ksz - nkOf s.ctrl.ksz - n) (nkOf s.ctrl.ksz + n) w =
        keyExpansion (nkOf s.ctrl.ksz) (nwOf s.ctrl.ksz) (keyOperand s) s.w := by
  have hk : nkOf s.ctrl.ksz = 4 ∨ nkOf s.ctrl.ksz = 6 ∨ nkOf s.ctrl.ksz = 8 := by
    rcases nkOf_nwOf_cases h with e | e | e <;> simp [e.1]
  induction n with
  | zero =>
    refine ⟨copyKeyWords (keyOperand s) (nkOf s.ctrl.ksz) s.w, ?_, rfl⟩
    simp only [Function.iterate_zero_apply, startExpand, rconAt, Nat.add_zero]
    rcases hk with e | e | e <;> rw [e] <;> rfl
  | succ n ih =>
    obtain ⟨w, hw, hall⟩ := ih (by omega)
    have hi : nkOf s.ctrl.ksz + n < 60 := by rcases nkOf_nwOf_cases h with e | e | e <;> omega
    have hj : rconAt (nkOf s.ctrl.ksz) (nkOf s.ctrl.ksz + n) < 12 := by
      simp only [rconAt]
      rcases nkOf_nwOf_cases h with ⟨e, e'⟩ | ⟨e, e'⟩ | ⟨e, e'⟩ <;> rw [e] at hn ⊢ <;> rw [e'] at hn <;> omega
    refine ⟨expandStep (nkOf s.ctrl.ksz) (nkOf s.ctrl.ksz + n) w, ?_, ?_⟩
    · rw [Function.iterate_succ_apply', hw]
      simp only [expandAdvance, expandedWord, val_ofNat_of_lt hi, val_ofNat_of_lt hj, expandTemp_rconAt hk,
        expandCounters_rconAt hk s.dp _ hi hj]
      rfl
    · rw [← hall, show nwOf s.ctrl.ksz - nkOf s.ctrl.ksz - n = nwOf s.ctrl.ksz - nkOf s.ctrl.ksz - (n + 1) + 1 by
        omega]
      rfl

/-- The expander writes W as Listing KX-1 says and changes nothing else outside the datapath (R215). -/
theorem runKeyExpansion_eq (s : State) (h : s.ctrl.ksz ≠ 3) :
    ∃ i j, runKeyExpansion s =
      { s with
        phase := .expand
        w := keyExpansion (nkOf s.ctrl.ksz) (nwOf s.ctrl.ksz) (keyOperand s) s.w
        dp := { s.dp with wordIndex := i, rconIndex := j } } := by
  obtain ⟨w, hw, hall⟩ := expandAdvance_iterate s h _ le_rfl
  rw [Nat.sub_self] at hall
  refine ⟨Fin.ofNat 60 (nkOf s.ctrl.ksz + (nwOf s.ctrl.ksz - nkOf s.ctrl.ksz)),
    Fin.ofNat 12 (rconAt (nkOf s.ctrl.ksz) (nkOf s.ctrl.ksz + (nwOf s.ctrl.ksz - nkOf s.ctrl.ksz))), ?_⟩
  rw [runKeyExpansion, expanded, hw, ← hall]
  rfl

end Sys2Proof.Machine
end

