-- ==== Sys2Proof/Laws/State.lean ====
section
/-! SUPPORT. One lemma per field per update of State: what each named operation leaves in each field. -/

namespace Sys2Proof.Machine

variable (s : State)

@[simp] theorem respond_ctrl (v : Word) : (respond v s).ctrl = s.ctrl := rfl
@[simp] theorem respond_keyValid (v : Word) : (respond v s).keyValid = s.keyValid := rfl
@[simp] theorem respond_ivValid (v : Word) : (respond v s).ivValid = s.ivValid := rfl
@[simp] theorem respond_outValid (v : Word) : (respond v s).outValid = s.outValid := rfl
@[simp] theorem respond_fault (v : Word) : (respond v s).fault = s.fault := rfl
@[simp] theorem respond_busy (v : Word) : (respond v s).busy = s.busy := rfl
@[simp] theorem respond_errCode (v : Word) : (respond v s).errCode = s.errCode := rfl
@[simp] theorem respond_rkidx (v : Word) : (respond v s).rkidx = s.rkidx := rfl
@[simp] theorem respond_key (v : Word) : (respond v s).key = s.key := rfl
@[simp] theorem respond_iv (v : Word) : (respond v s).iv = s.iv := rfl
@[simp] theorem respond_din (v : Word) : (respond v s).din = s.din := rfl
@[simp] theorem respond_dout (v : Word) : (respond v s).dout = s.dout := rfl
@[simp] theorem respond_w (v : Word) : (respond v s).w = s.w := rfl
@[simp] theorem respond_chain (v : Word) : (respond v s).chain = s.chain := rfl
@[simp] theorem respond_phase (v : Word) : (respond v s).phase = s.phase := rfl
@[simp] theorem respond_dp (v : Word) : (respond v s).dp = s.dp := rfl
@[simp] theorem respond_rdata (v : Word) : (respond v s).rdata = some v := rfl
@[simp] theorem respond_inputs (v : Word) : (respond v s).inputs = s.inputs := rfl
@[simp] theorem respond_draws (v : Word) : (respond v s).draws = s.draws := rfl

@[simp] theorem writeKey_ctrl (j : Fin 8) (v : Word) : (writeKey j v s).ctrl = s.ctrl := rfl
@[simp] theorem writeKey_keyValid (j : Fin 8) (v : Word) : (writeKey j v s).keyValid = s.keyValid := rfl
@[simp] theorem writeKey_ivValid (j : Fin 8) (v : Word) : (writeKey j v s).ivValid = s.ivValid := rfl
@[simp] theorem writeKey_outValid (j : Fin 8) (v : Word) : (writeKey j v s).outValid = s.outValid := rfl
@[simp] theorem writeKey_fault (j : Fin 8) (v : Word) : (writeKey j v s).fault = s.fault := rfl
@[simp] theorem writeKey_busy (j : Fin 8) (v : Word) : (writeKey j v s).busy = s.busy := rfl
@[simp] theorem writeKey_errCode (j : Fin 8) (v : Word) : (writeKey j v s).errCode = s.errCode := rfl
@[simp] theorem writeKey_rkidx (j : Fin 8) (v : Word) : (writeKey j v s).rkidx = s.rkidx := rfl
@[simp] theorem writeKey_key (j : Fin 8) (v : Word) : (writeKey j v s).key = s.key.set j v := rfl
@[simp] theorem writeKey_iv (j : Fin 8) (v : Word) : (writeKey j v s).iv = s.iv := rfl
@[simp] theorem writeKey_din (j : Fin 8) (v : Word) : (writeKey j v s).din = s.din := rfl
@[simp] theorem writeKey_dout (j : Fin 8) (v : Word) : (writeKey j v s).dout = s.dout := rfl
@[simp] theorem writeKey_w (j : Fin 8) (v : Word) : (writeKey j v s).w = s.w := rfl
@[simp] theorem writeKey_chain (j : Fin 8) (v : Word) : (writeKey j v s).chain = s.chain := rfl
@[simp] theorem writeKey_phase (j : Fin 8) (v : Word) : (writeKey j v s).phase = s.phase := rfl
@[simp] theorem writeKey_dp (j : Fin 8) (v : Word) : (writeKey j v s).dp = s.dp := rfl
@[simp] theorem writeKey_rdata (j : Fin 8) (v : Word) : (writeKey j v s).rdata = s.rdata := rfl
@[simp] theorem writeKey_inputs (j : Fin 8) (v : Word) : (writeKey j v s).inputs = s.inputs := rfl
@[simp] theorem writeKey_draws (j : Fin 8) (v : Word) : (writeKey j v s).draws = s.draws := rfl

@[simp] theorem writeIv_ctrl (j : Fin 4) (v : Word) : (writeIv j v s).ctrl = s.ctrl := rfl
@[simp] theorem writeIv_keyValid (j : Fin 4) (v : Word) : (writeIv j v s).keyValid = s.keyValid := rfl
@[simp] theorem writeIv_ivValid (j : Fin 4) (v : Word) : (writeIv j v s).ivValid = s.ivValid := rfl
@[simp] theorem writeIv_outValid (j : Fin 4) (v : Word) : (writeIv j v s).outValid = s.outValid := rfl
@[simp] theorem writeIv_fault (j : Fin 4) (v : Word) : (writeIv j v s).fault = s.fault := rfl
@[simp] theorem writeIv_busy (j : Fin 4) (v : Word) : (writeIv j v s).busy = s.busy := rfl
@[simp] theorem writeIv_errCode (j : Fin 4) (v : Word) : (writeIv j v s).errCode = s.errCode := rfl
@[simp] theorem writeIv_rkidx (j : Fin 4) (v : Word) : (writeIv j v s).rkidx = s.rkidx := rfl
@[simp] theorem writeIv_key (j : Fin 4) (v : Word) : (writeIv j v s).key = s.key := rfl
@[simp] theorem writeIv_iv (j : Fin 4) (v : Word) : (writeIv j v s).iv = s.iv.set j v := rfl
@[simp] theorem writeIv_din (j : Fin 4) (v : Word) : (writeIv j v s).din = s.din := rfl
@[simp] theorem writeIv_dout (j : Fin 4) (v : Word) : (writeIv j v s).dout = s.dout := rfl
@[simp] theorem writeIv_w (j : Fin 4) (v : Word) : (writeIv j v s).w = s.w := rfl
@[simp] theorem writeIv_chain (j : Fin 4) (v : Word) : (writeIv j v s).chain = s.chain := rfl
@[simp] theorem writeIv_phase (j : Fin 4) (v : Word) : (writeIv j v s).phase = s.phase := rfl
@[simp] theorem writeIv_dp (j : Fin 4) (v : Word) : (writeIv j v s).dp = s.dp := rfl
@[simp] theorem writeIv_rdata (j : Fin 4) (v : Word) : (writeIv j v s).rdata = s.rdata := rfl
@[simp] theorem writeIv_inputs (j : Fin 4) (v : Word) : (writeIv j v s).inputs = s.inputs := rfl
@[simp] theorem writeIv_draws (j : Fin 4) (v : Word) : (writeIv j v s).draws = s.draws := rfl

@[simp] theorem writeDin_ctrl (j : Fin 4) (v : Word) : (writeDin j v s).ctrl = s.ctrl := rfl
@[simp] theorem writeDin_keyValid (j : Fin 4) (v : Word) : (writeDin j v s).keyValid = s.keyValid := rfl
@[simp] theorem writeDin_ivValid (j : Fin 4) (v : Word) : (writeDin j v s).ivValid = s.ivValid := rfl
@[simp] theorem writeDin_outValid (j : Fin 4) (v : Word) : (writeDin j v s).outValid = s.outValid := rfl
@[simp] theorem writeDin_fault (j : Fin 4) (v : Word) : (writeDin j v s).fault = s.fault := rfl
@[simp] theorem writeDin_busy (j : Fin 4) (v : Word) : (writeDin j v s).busy = s.busy := rfl
@[simp] theorem writeDin_errCode (j : Fin 4) (v : Word) : (writeDin j v s).errCode = s.errCode := rfl
@[simp] theorem writeDin_rkidx (j : Fin 4) (v : Word) : (writeDin j v s).rkidx = s.rkidx := rfl
@[simp] theorem writeDin_key (j : Fin 4) (v : Word) : (writeDin j v s).key = s.key := rfl
@[simp] theorem writeDin_iv (j : Fin 4) (v : Word) : (writeDin j v s).iv = s.iv := rfl
@[simp] theorem writeDin_din (j : Fin 4) (v : Word) : (writeDin j v s).din = s.din.set j v := rfl
@[simp] theorem writeDin_dout (j : Fin 4) (v : Word) : (writeDin j v s).dout = s.dout := rfl
@[simp] theorem writeDin_w (j : Fin 4) (v : Word) : (writeDin j v s).w = s.w := rfl
@[simp] theorem writeDin_chain (j : Fin 4) (v : Word) : (writeDin j v s).chain = s.chain := rfl
@[simp] theorem writeDin_phase (j : Fin 4) (v : Word) : (writeDin j v s).phase = s.phase := rfl
@[simp] theorem writeDin_dp (j : Fin 4) (v : Word) : (writeDin j v s).dp = s.dp := rfl
@[simp] theorem writeDin_rdata (j : Fin 4) (v : Word) : (writeDin j v s).rdata = s.rdata := rfl
@[simp] theorem writeDin_inputs (j : Fin 4) (v : Word) : (writeDin j v s).inputs = s.inputs := rfl
@[simp] theorem writeDin_draws (j : Fin 4) (v : Word) : (writeDin j v s).draws = s.draws := rfl

@[simp] theorem writeRkidx_ctrl (x : BitVec 6) : (writeRkidx x s).ctrl = s.ctrl := rfl
@[simp] theorem writeRkidx_keyValid (x : BitVec 6) : (writeRkidx x s).keyValid = s.keyValid := rfl
@[simp] theorem writeRkidx_ivValid (x : BitVec 6) : (writeRkidx x s).ivValid = s.ivValid := rfl
@[simp] theorem writeRkidx_outValid (x : BitVec 6) : (writeRkidx x s).outValid = s.outValid := rfl
@[simp] theorem writeRkidx_fault (x : BitVec 6) : (writeRkidx x s).fault = s.fault := rfl
@[simp] theorem writeRkidx_busy (x : BitVec 6) : (writeRkidx x s).busy = s.busy := rfl
@[simp] theorem writeRkidx_errCode (x : BitVec 6) : (writeRkidx x s).errCode = s.errCode := rfl
@[simp] theorem writeRkidx_rkidx (x : BitVec 6) : (writeRkidx x s).rkidx = x := rfl
@[simp] theorem writeRkidx_key (x : BitVec 6) : (writeRkidx x s).key = s.key := rfl
@[simp] theorem writeRkidx_iv (x : BitVec 6) : (writeRkidx x s).iv = s.iv := rfl
@[simp] theorem writeRkidx_din (x : BitVec 6) : (writeRkidx x s).din = s.din := rfl
@[simp] theorem writeRkidx_dout (x : BitVec 6) : (writeRkidx x s).dout = s.dout := rfl
@[simp] theorem writeRkidx_w (x : BitVec 6) : (writeRkidx x s).w = s.w := rfl
@[simp] theorem writeRkidx_chain (x : BitVec 6) : (writeRkidx x s).chain = s.chain := rfl
@[simp] theorem writeRkidx_phase (x : BitVec 6) : (writeRkidx x s).phase = s.phase := rfl
@[simp] theorem writeRkidx_dp (x : BitVec 6) : (writeRkidx x s).dp = s.dp := rfl
@[simp] theorem writeRkidx_rdata (x : BitVec 6) : (writeRkidx x s).rdata = s.rdata := rfl
@[simp] theorem writeRkidx_inputs (x : BitVec 6) : (writeRkidx x s).inputs = s.inputs := rfl
@[simp] theorem writeRkidx_draws (x : BitVec 6) : (writeRkidx x s).draws = s.draws := rfl

@[simp] theorem raiseFatal_ctrl (c : ErrorCode) : (raiseFatal c s).ctrl = s.ctrl := rfl
@[simp] theorem raiseFatal_keyValid (c : ErrorCode) : (raiseFatal c s).keyValid = s.keyValid := rfl
@[simp] theorem raiseFatal_ivValid (c : ErrorCode) : (raiseFatal c s).ivValid = s.ivValid := rfl
@[simp] theorem raiseFatal_outValid (c : ErrorCode) : (raiseFatal c s).outValid = false := rfl
@[simp] theorem raiseFatal_fault (c : ErrorCode) : (raiseFatal c s).fault = true := rfl
@[simp] theorem raiseFatal_busy (c : ErrorCode) : (raiseFatal c s).busy = s.busy := rfl
@[simp] theorem raiseFatal_errCode (c : ErrorCode) : (raiseFatal c s).errCode = c := rfl
@[simp] theorem raiseFatal_rkidx (c : ErrorCode) : (raiseFatal c s).rkidx = s.rkidx := rfl
@[simp] theorem raiseFatal_key (c : ErrorCode) : (raiseFatal c s).key = s.key := rfl
@[simp] theorem raiseFatal_iv (c : ErrorCode) : (raiseFatal c s).iv = s.iv := rfl
@[simp] theorem raiseFatal_din (c : ErrorCode) : (raiseFatal c s).din = s.din := rfl
@[simp] theorem raiseFatal_dout (c : ErrorCode) : (raiseFatal c s).dout = zeroRegs := rfl
@[simp] theorem raiseFatal_w (c : ErrorCode) : (raiseFatal c s).w = s.w := rfl
@[simp] theorem raiseFatal_chain (c : ErrorCode) : (raiseFatal c s).chain = s.chain := rfl
@[simp] theorem raiseFatal_phase (c : ErrorCode) : (raiseFatal c s).phase = s.phase := rfl
@[simp] theorem raiseFatal_dp (c : ErrorCode) : (raiseFatal c s).dp = s.dp := rfl
@[simp] theorem raiseFatal_rdata (c : ErrorCode) : (raiseFatal c s).rdata = s.rdata := rfl
@[simp] theorem raiseFatal_inputs (c : ErrorCode) : (raiseFatal c s).inputs = s.inputs := rfl
@[simp] theorem raiseFatal_draws (c : ErrorCode) : (raiseFatal c s).draws = s.draws := rfl

@[simp] theorem startRun_ctrl (c : Ctrl) : (startRun c s).ctrl = c := rfl
@[simp] theorem startRun_keyValid (c : Ctrl) : (startRun c s).keyValid = false := rfl
@[simp] theorem startRun_ivValid (c : Ctrl) : (startRun c s).ivValid = false := rfl
@[simp] theorem startRun_outValid (c : Ctrl) : (startRun c s).outValid = false := rfl
@[simp] theorem startRun_fault (c : Ctrl) : (startRun c s).fault = false := rfl
@[simp] theorem startRun_busy (c : Ctrl) : (startRun c s).busy = s.busy := rfl
@[simp] theorem startRun_errCode (c : Ctrl) : (startRun c s).errCode = .none := rfl
@[simp] theorem startRun_rkidx (c : Ctrl) : (startRun c s).rkidx = s.rkidx := rfl
@[simp] theorem startRun_key (c : Ctrl) : (startRun c s).key = s.key := rfl
@[simp] theorem startRun_iv (c : Ctrl) : (startRun c s).iv = s.iv := rfl
@[simp] theorem startRun_din (c : Ctrl) : (startRun c s).din = s.din := rfl
@[simp] theorem startRun_dout (c : Ctrl) : (startRun c s).dout = zeroRegs := rfl
@[simp] theorem startRun_w (c : Ctrl) : (startRun c s).w = s.w := rfl
@[simp] theorem startRun_chain (c : Ctrl) : (startRun c s).chain = Block.zero := rfl
@[simp] theorem startRun_phase (c : Ctrl) : (startRun c s).phase = s.phase := rfl
@[simp] theorem startRun_dp (c : Ctrl) : (startRun c s).dp = s.dp := rfl
@[simp] theorem startRun_rdata (c : Ctrl) : (startRun c s).rdata = s.rdata := rfl
@[simp] theorem startRun_inputs (c : Ctrl) : (startRun c s).inputs = s.inputs := rfl
@[simp] theorem startRun_draws (c : Ctrl) : (startRun c s).draws = s.draws := rfl

@[simp] theorem clearAll_ctrl : (clearAll s).ctrl = ⟨0, .encrypt, .ecb⟩ := rfl
@[simp] theorem clearAll_keyValid : (clearAll s).keyValid = false := rfl
@[simp] theorem clearAll_ivValid : (clearAll s).ivValid = false := rfl
@[simp] theorem clearAll_outValid : (clearAll s).outValid = false := rfl
@[simp] theorem clearAll_fault : (clearAll s).fault = false := rfl
@[simp] theorem clearAll_busy : (clearAll s).busy = false := rfl
@[simp] theorem clearAll_errCode : (clearAll s).errCode = .none := rfl
@[simp] theorem clearAll_rkidx : (clearAll s).rkidx = 0 := rfl
@[simp] theorem clearAll_key : (clearAll s).key = Vector.replicate 8 0 := rfl
@[simp] theorem clearAll_iv : (clearAll s).iv = Vector.replicate 4 0 := rfl
@[simp] theorem clearAll_din : (clearAll s).din = Vector.replicate 4 0 := rfl
@[simp] theorem clearAll_dout : (clearAll s).dout = zeroRegs := rfl
@[simp] theorem clearAll_w : (clearAll s).w = Config.freeSchedule s.draws := rfl
@[simp] theorem clearAll_chain : (clearAll s).chain = Block.zero := rfl
@[simp] theorem clearAll_phase : (clearAll s).phase = .idle := rfl
@[simp] theorem clearAll_dp : (clearAll s).dp = Config.freeDatapath s.draws := rfl
@[simp] theorem clearAll_rdata : (clearAll s).rdata = s.rdata := rfl
@[simp] theorem clearAll_inputs : (clearAll s).inputs = s.inputs := rfl
@[simp] theorem clearAll_draws : (clearAll s).draws = s.draws + 1 := rfl

@[simp] theorem releaseDatapath_ctrl : (releaseDatapath s).ctrl = s.ctrl := rfl
@[simp] theorem releaseDatapath_keyValid : (releaseDatapath s).keyValid = s.keyValid := rfl
@[simp] theorem releaseDatapath_ivValid : (releaseDatapath s).ivValid = s.ivValid := rfl
@[simp] theorem releaseDatapath_outValid : (releaseDatapath s).outValid = s.outValid := rfl
@[simp] theorem releaseDatapath_fault : (releaseDatapath s).fault = s.fault := rfl
@[simp] theorem releaseDatapath_busy : (releaseDatapath s).busy = s.busy := rfl
@[simp] theorem releaseDatapath_errCode : (releaseDatapath s).errCode = s.errCode := rfl
@[simp] theorem releaseDatapath_rkidx : (releaseDatapath s).rkidx = s.rkidx := rfl
@[simp] theorem releaseDatapath_key : (releaseDatapath s).key = s.key := rfl
@[simp] theorem releaseDatapath_iv : (releaseDatapath s).iv = s.iv := rfl
@[simp] theorem releaseDatapath_din : (releaseDatapath s).din = s.din := rfl
@[simp] theorem releaseDatapath_dout : (releaseDatapath s).dout = s.dout := rfl
@[simp] theorem releaseDatapath_w : (releaseDatapath s).w = s.w := rfl
@[simp] theorem releaseDatapath_chain : (releaseDatapath s).chain = s.chain := rfl
@[simp] theorem releaseDatapath_phase : (releaseDatapath s).phase = .idle := rfl
@[simp] theorem releaseDatapath_dp : (releaseDatapath s).dp = Config.freeDatapath s.draws := rfl
@[simp] theorem releaseDatapath_rdata : (releaseDatapath s).rdata = s.rdata := rfl
@[simp] theorem releaseDatapath_inputs : (releaseDatapath s).inputs = s.inputs := rfl
@[simp] theorem releaseDatapath_draws : (releaseDatapath s).draws = s.draws + 1 := rfl

@[simp] theorem loadS_ctrl : (loadS s).ctrl = s.ctrl := rfl
@[simp] theorem loadS_keyValid : (loadS s).keyValid = s.keyValid := rfl
@[simp] theorem loadS_ivValid : (loadS s).ivValid = s.ivValid := rfl
@[simp] theorem loadS_outValid : (loadS s).outValid = s.outValid := rfl
@[simp] theorem loadS_fault : (loadS s).fault = s.fault := rfl
@[simp] theorem loadS_busy : (loadS s).busy = s.busy := rfl
@[simp] theorem loadS_errCode : (loadS s).errCode = s.errCode := rfl
@[simp] theorem loadS_rkidx : (loadS s).rkidx = s.rkidx := rfl
@[simp] theorem loadS_key : (loadS s).key = s.key := rfl
@[simp] theorem loadS_iv : (loadS s).iv = s.iv := rfl
@[simp] theorem loadS_din : (loadS s).din = s.din := rfl
@[simp] theorem loadS_dout : (loadS s).dout = s.dout := rfl
@[simp] theorem loadS_w : (loadS s).w = s.w := rfl
@[simp] theorem loadS_chain : (loadS s).chain = s.chain := rfl
@[simp] theorem loadS_phase : (loadS s).phase = s.phase := rfl
@[simp] theorem loadS_rdata : (loadS s).rdata = s.rdata := rfl
@[simp] theorem loadS_inputs : (loadS s).inputs = s.inputs := rfl
@[simp] theorem loadS_draws : (loadS s).draws = s.draws := rfl
@[simp] theorem loadS_dp_s : (loadS s).dp.s = dinOperand s := rfl
@[simp] theorem loadS_dp_cap : (loadS s).dp.cap = s.dp.cap := rfl
@[simp] theorem loadS_dp_snapshot : (loadS s).dp.snapshot = s.dp.snapshot := rfl
@[simp] theorem loadS_dp_wordIndex : (loadS s).dp.wordIndex = s.dp.wordIndex := rfl
@[simp] theorem loadS_dp_rconIndex : (loadS s).dp.rconIndex = s.dp.rconIndex := rfl
@[simp] theorem loadS_dp_round : (loadS s).dp.round = s.dp.round := rfl

@[simp] theorem xorChain_ctrl : (xorChain s).ctrl = s.ctrl := rfl
@[simp] theorem xorChain_keyValid : (xorChain s).keyValid = s.keyValid := rfl
@[simp] theorem xorChain_ivValid : (xorChain s).ivValid = s.ivValid := rfl
@[simp] theorem xorChain_outValid : (xorChain s).outValid = s.outValid := rfl
@[simp] theorem xorChain_fault : (xorChain s).fault = s.fault := rfl
@[simp] theorem xorChain_busy : (xorChain s).busy = s.busy := rfl
@[simp] theorem xorChain_errCode : (xorChain s).errCode = s.errCode := rfl
@[simp] theorem xorChain_rkidx : (xorChain s).rkidx = s.rkidx := rfl
@[simp] theorem xorChain_key : (xorChain s).key = s.key := rfl
@[simp] theorem xorChain_iv : (xorChain s).iv = s.iv := rfl
@[simp] theorem xorChain_din : (xorChain s).din = s.din := rfl
@[simp] theorem xorChain_dout : (xorChain s).dout = s.dout := rfl
@[simp] theorem xorChain_w : (xorChain s).w = s.w := rfl
@[simp] theorem xorChain_chain : (xorChain s).chain = s.chain := rfl
@[simp] theorem xorChain_phase : (xorChain s).phase = s.phase := rfl
@[simp] theorem xorChain_rdata : (xorChain s).rdata = s.rdata := rfl
@[simp] theorem xorChain_inputs : (xorChain s).inputs = s.inputs := rfl
@[simp] theorem xorChain_draws : (xorChain s).draws = s.draws := rfl
@[simp] theorem xorChain_dp_s : (xorChain s).dp.s = s.dp.s.xor s.chain := rfl
@[simp] theorem xorChain_dp_cap : (xorChain s).dp.cap = s.dp.cap := rfl
@[simp] theorem xorChain_dp_snapshot : (xorChain s).dp.snapshot = s.dp.snapshot := rfl
@[simp] theorem xorChain_dp_wordIndex : (xorChain s).dp.wordIndex = s.dp.wordIndex := rfl
@[simp] theorem xorChain_dp_rconIndex : (xorChain s).dp.rconIndex = s.dp.rconIndex := rfl
@[simp] theorem xorChain_dp_round : (xorChain s).dp.round = s.dp.round := rfl

@[simp] theorem captureInput_ctrl : (captureInput s).ctrl = s.ctrl := rfl
@[simp] theorem captureInput_keyValid : (captureInput s).keyValid = s.keyValid := rfl
@[simp] theorem captureInput_ivValid : (captureInput s).ivValid = s.ivValid := rfl
@[simp] theorem captureInput_outValid : (captureInput s).outValid = s.outValid := rfl
@[simp] theorem captureInput_fault : (captureInput s).fault = s.fault := rfl
@[simp] theorem captureInput_busy : (captureInput s).busy = s.busy := rfl
@[simp] theorem captureInput_errCode : (captureInput s).errCode = s.errCode := rfl
@[simp] theorem captureInput_rkidx : (captureInput s).rkidx = s.rkidx := rfl
@[simp] theorem captureInput_key : (captureInput s).key = s.key := rfl
@[simp] theorem captureInput_iv : (captureInput s).iv = s.iv := rfl
@[simp] theorem captureInput_din : (captureInput s).din = s.din := rfl
@[simp] theorem captureInput_dout : (captureInput s).dout = s.dout := rfl
@[simp] theorem captureInput_w : (captureInput s).w = s.w := rfl
@[simp] theorem captureInput_chain : (captureInput s).chain = s.chain := rfl
@[simp] theorem captureInput_phase : (captureInput s).phase = s.phase := rfl
@[simp] theorem captureInput_rdata : (captureInput s).rdata = s.rdata := rfl
@[simp] theorem captureInput_inputs : (captureInput s).inputs = s.inputs := rfl
@[simp] theorem captureInput_draws : (captureInput s).draws = s.draws := rfl
@[simp] theorem captureInput_dp_s : (captureInput s).dp.s = s.dp.s := rfl
@[simp] theorem captureInput_dp_cap : (captureInput s).dp.cap = s.dp.s := rfl
@[simp] theorem captureInput_dp_snapshot : (captureInput s).dp.snapshot = s.dp.snapshot := rfl
@[simp] theorem captureInput_dp_wordIndex : (captureInput s).dp.wordIndex = s.dp.wordIndex := rfl
@[simp] theorem captureInput_dp_rconIndex : (captureInput s).dp.rconIndex = s.dp.rconIndex := rfl
@[simp] theorem captureInput_dp_round : (captureInput s).dp.round = s.dp.round := rfl

@[simp] theorem chainFromS_ctrl : (chainFromS s).ctrl = s.ctrl := rfl
@[simp] theorem chainFromS_keyValid : (chainFromS s).keyValid = s.keyValid := rfl
@[simp] theorem chainFromS_ivValid : (chainFromS s).ivValid = s.ivValid := rfl
@[simp] theorem chainFromS_outValid : (chainFromS s).outValid = s.outValid := rfl
@[simp] theorem chainFromS_fault : (chainFromS s).fault = s.fault := rfl
@[simp] theorem chainFromS_busy : (chainFromS s).busy = s.busy := rfl
@[simp] theorem chainFromS_errCode : (chainFromS s).errCode = s.errCode := rfl
@[simp] theorem chainFromS_rkidx : (chainFromS s).rkidx = s.rkidx := rfl
@[simp] theorem chainFromS_key : (chainFromS s).key = s.key := rfl
@[simp] theorem chainFromS_iv : (chainFromS s).iv = s.iv := rfl
@[simp] theorem chainFromS_din : (chainFromS s).din = s.din := rfl
@[simp] theorem chainFromS_dout : (chainFromS s).dout = s.dout := rfl
@[simp] theorem chainFromS_w : (chainFromS s).w = s.w := rfl
@[simp] theorem chainFromS_chain : (chainFromS s).chain = s.dp.s := rfl
@[simp] theorem chainFromS_phase : (chainFromS s).phase = s.phase := rfl
@[simp] theorem chainFromS_dp : (chainFromS s).dp = s.dp := rfl
@[simp] theorem chainFromS_rdata : (chainFromS s).rdata = s.rdata := rfl
@[simp] theorem chainFromS_inputs : (chainFromS s).inputs = s.inputs := rfl
@[simp] theorem chainFromS_draws : (chainFromS s).draws = s.draws := rfl

@[simp] theorem chainFromCap_ctrl : (chainFromCap s).ctrl = s.ctrl := rfl
@[simp] theorem chainFromCap_keyValid : (chainFromCap s).keyValid = s.keyValid := rfl
@[simp] theorem chainFromCap_ivValid : (chainFromCap s).ivValid = s.ivValid := rfl
@[simp] theorem chainFromCap_outValid : (chainFromCap s).outValid = s.outValid := rfl
@[simp] theorem chainFromCap_fault : (chainFromCap s).fault = s.fault := rfl
@[simp] theorem chainFromCap_busy : (chainFromCap s).busy = s.busy := rfl
@[simp] theorem chainFromCap_errCode : (chainFromCap s).errCode = s.errCode := rfl
@[simp] theorem chainFromCap_rkidx : (chainFromCap s).rkidx = s.rkidx := rfl
@[simp] theorem chainFromCap_key : (chainFromCap s).key = s.key := rfl
@[simp] theorem chainFromCap_iv : (chainFromCap s).iv = s.iv := rfl
@[simp] theorem chainFromCap_din : (chainFromCap s).din = s.din := rfl
@[simp] theorem chainFromCap_dout : (chainFromCap s).dout = s.dout := rfl
@[simp] theorem chainFromCap_w : (chainFromCap s).w = s.w := rfl
@[simp] theorem chainFromCap_chain : (chainFromCap s).chain = s.dp.cap := rfl
@[simp] theorem chainFromCap_phase : (chainFromCap s).phase = s.phase := rfl
@[simp] theorem chainFromCap_dp : (chainFromCap s).dp = s.dp := rfl
@[simp] theorem chainFromCap_rdata : (chainFromCap s).rdata = s.rdata := rfl
@[simp] theorem chainFromCap_inputs : (chainFromCap s).inputs = s.inputs := rfl
@[simp] theorem chainFromCap_draws : (chainFromCap s).draws = s.draws := rfl

@[simp] theorem storeOutput_ctrl : (storeOutput s).ctrl = s.ctrl := rfl
@[simp] theorem storeOutput_keyValid : (storeOutput s).keyValid = s.keyValid := rfl
@[simp] theorem storeOutput_ivValid : (storeOutput s).ivValid = s.ivValid := rfl
@[simp] theorem storeOutput_outValid : (storeOutput s).outValid = true := rfl
@[simp] theorem storeOutput_fault : (storeOutput s).fault = s.fault := rfl
@[simp] theorem storeOutput_busy : (storeOutput s).busy = s.busy := rfl
@[simp] theorem storeOutput_errCode : (storeOutput s).errCode = s.errCode := rfl
@[simp] theorem storeOutput_rkidx : (storeOutput s).rkidx = s.rkidx := rfl
@[simp] theorem storeOutput_key : (storeOutput s).key = s.key := rfl
@[simp] theorem storeOutput_iv : (storeOutput s).iv = s.iv := rfl
@[simp] theorem storeOutput_din : (storeOutput s).din = s.din := rfl
@[simp] theorem storeOutput_dout : (storeOutput s).dout = regsOfBlock s.dp.s := rfl
@[simp] theorem storeOutput_w : (storeOutput s).w = s.w := rfl
@[simp] theorem storeOutput_chain : (storeOutput s).chain = s.chain := rfl
@[simp] theorem storeOutput_phase : (storeOutput s).phase = s.phase := rfl
@[simp] theorem storeOutput_dp : (storeOutput s).dp = s.dp := rfl
@[simp] theorem storeOutput_rdata : (storeOutput s).rdata = s.rdata := rfl
@[simp] theorem storeOutput_inputs : (storeOutput s).inputs = s.inputs := rfl
@[simp] theorem storeOutput_draws : (storeOutput s).draws = s.draws := rfl

@[simp] theorem resetInput_ctrl : (resetInput s).ctrl = ⟨0, .encrypt, .ecb⟩ := rfl
@[simp] theorem resetInput_keyValid : (resetInput s).keyValid = false := rfl
@[simp] theorem resetInput_ivValid : (resetInput s).ivValid = false := rfl
@[simp] theorem resetInput_outValid : (resetInput s).outValid = false := rfl
@[simp] theorem resetInput_fault : (resetInput s).fault = false := rfl
@[simp] theorem resetInput_busy : (resetInput s).busy = false := rfl
@[simp] theorem resetInput_errCode : (resetInput s).errCode = .none := rfl
@[simp] theorem resetInput_rkidx : (resetInput s).rkidx = 0 := rfl
@[simp] theorem resetInput_key : (resetInput s).key = Vector.replicate 8 0 := rfl
@[simp] theorem resetInput_iv : (resetInput s).iv = Vector.replicate 4 0 := rfl
@[simp] theorem resetInput_din : (resetInput s).din = Vector.replicate 4 0 := rfl
@[simp] theorem resetInput_dout : (resetInput s).dout = zeroRegs := rfl
@[simp] theorem resetInput_w : (resetInput s).w = Config.freeSchedule s.draws := rfl
@[simp] theorem resetInput_chain : (resetInput s).chain = Block.zero := rfl
@[simp] theorem resetInput_phase : (resetInput s).phase = .idle := rfl
@[simp] theorem resetInput_dp : (resetInput s).dp = Config.freeDatapath s.draws := rfl
@[simp] theorem resetInput_rdata : (resetInput s).rdata = none := rfl
@[simp] theorem resetInput_inputs : (resetInput s).inputs = s.inputs := rfl
@[simp] theorem resetInput_draws : (resetInput s).draws = s.draws + 1 := rfl

end Sys2Proof.Machine
end

