-- ==== Sys2Proof/Laws/Commands.lean ====
section
/-! SUPPORT. What each command can do, said once: if a command's meaning answers a next state, that state is one of the
few listed. Later proofs cite these and unfold no command. -/

namespace Sys2Proof.Machine

open Config (Datapath)

/-! ### The error actions -/

/-- Error(code) writes ERRCODE when FAULT = 0 and nothing else (R364). -/
theorem raiseError_eq (c : ErrorCode) (s : State) :
    raiseError c s = { s with errCode := if s.fault then s.errCode else c } := by
  by_cases h : s.fault = true
  · rw [raiseError, if_pos h, if_pos h]
  · rw [raiseError, if_neg h, if_neg h]

theorem raiseError_of_not_fault {c : ErrorCode} {s : State} (h : s.fault = false) :
    raiseError c s = { s with errCode := c } := by
  simp [raiseError, h]

/-! ### The round pipelines, whatever KSZ is -/

/-- The forward pipeline keeps the capture register. -/
theorem cipherAdvance_iterate_cap (w : Vector AesWord 60) (nr n : Nat) (d : Datapath) :
    ((cipherAdvance w nr)^[n] d).cap = d.cap := by
  induction n generalizing d with
  | zero => rfl
  | succ n ih =>
    rw [Function.iterate_succ_apply, ih]
    simp only [cipherAdvance]
    split
    · rfl
    · split <;> rfl

/-- The inverse pipeline keeps the capture register. -/
theorem invCipherAdvance_iterate_cap (w : Vector AesWord 60) (nr n : Nat) (d : Datapath) :
    ((invCipherAdvance w nr)^[n] d).cap = d.cap := by
  induction n generalizing d with
  | zero => rfl
  | succ n ih =>
    rw [Function.iterate_succ_apply, ih]
    simp only [invCipherAdvance]
    split
    · rfl
    · split <;> rfl

/-- The inverse pipeline writes the phase and the datapath only, and keeps the capture register. -/
theorem runInvCipher_frame (s : State) :
    ∃ d, runInvCipher s = { s with phase := .invCipher, dp := d } ∧ d.cap = s.dp.cap :=
  ⟨_, rfl, invCipherAdvance_iterate_cap _ _ _ _⟩

/-! ### BLOCK -/

/-- Nr by CTRL.KSZ. -/
theorem nrOf_eq {k : BitVec 2} (h : k ≠ 3) : nrOf k = 10 + 2 * k.toNat := by
  revert k; decide

/-- Nk by CTRL.KSZ. -/
theorem nkOf_eq {k : BitVec 2} (h : k ≠ 3) : nkOf k = 4 + 2 * k.toNat := by
  revert k; decide

/-- The output block of the ECB paths and of the CBC paths (R271 to R273). -/
def blockResult (s : State) : Block :=
  match s.ctrl.dir, s.ctrl.mode with
  | .encrypt, .ecb => cipher s.w (nrOf s.ctrl.ksz) (dinOperand s)
  | .encrypt, .cbc => cipher s.w (nrOf s.ctrl.ksz) ((dinOperand s).xor s.chain)
  | .decrypt, .ecb => invCipher s.w (nrOf s.ctrl.ksz) (dinOperand s)
  | .decrypt, .cbc => (invCipher s.w (nrOf s.ctrl.ksz) (dinOperand s)).xor s.chain

/-- CHAIN after a BLOCK whose output is y (R266). -/
def blockChain (s : State) (y : Block) : Block :=
  match s.ctrl.mode, s.ctrl.dir with
  | .ecb, _ => s.chain
  | .cbc, .encrypt => y
  | .cbc, .decrypt => dinOperand s

/-- The path of BLOCK writes the datapath, the phase and CHAIN; with a legal key size S holds the result. -/
theorem blockPath_eq (s : State) :
    ∃ p d, blockPath s = { s with phase := p, dp := d, chain := blockChain s d.s } ∧
      (s.ctrl.ksz ≠ 3 → d.s = blockResult s) := by
  rcases hdir : s.ctrl.dir with _ | _ <;> rcases hmode : s.ctrl.mode with _ | _ <;>
    simp only [blockPath, blockEncrypt, blockDecrypt, blockChain, blockResult, hdir, hmode]
  · refine ⟨.cipher, (runCipher (loadS s)).dp, rfl, fun h => ?_⟩
    obtain ⟨snap, r, e⟩ := runCipher_eq (loadS s) h
    rw [e]
    rfl
  · refine ⟨.cipher, (runCipher (xorChain (loadS s))).dp, rfl, fun h => ?_⟩
    obtain ⟨snap, r, e⟩ := runCipher_eq (xorChain (loadS s)) h
    rw [e]
    rfl
  · refine ⟨.invCipher, (runInvCipher (captureInput (loadS s))).dp, rfl, fun h => ?_⟩
    obtain ⟨snap, r, e⟩ := runInvCipher_eq (captureInput (loadS s)) h
    rw [e]
    rfl
  · refine ⟨.invCipher, (xorChain (runInvCipher (captureInput (loadS s)))).dp, ?_, fun h => ?_⟩
    · obtain ⟨d, e, hc⟩ := runInvCipher_frame (captureInput (loadS s))
      rw [e]
      simp only [chainFromCap, xorChain, hc]
      rfl
    · obtain ⟨snap, r, e⟩ := runInvCipher_eq (captureInput (loadS s)) h
      rw [e]
      rfl

/-- All that BLOCK can do (R269, R270). -/
theorem execCmdBlock_next {s t : State} (h : execCmdBlock s = .next t) :
    (s.fault = true ∧ t = s) ∨
    (s.fault = false ∧ s.keyValid = false ∧ t = raiseFatal .noKey s) ∨
    (s.fault = false ∧ s.keyValid = true ∧ s.ctrl.mode = .cbc ∧ s.ivValid = false ∧ t = raiseFatal .noIv s) ∨
    (s.fault = false ∧ s.keyValid = true ∧ (s.ctrl.mode = .cbc → s.ivValid = true) ∧
      ∃ y, t = { s with
          dout := regsOfBlock y, outValid := true, chain := blockChain s y, phase := .idle
          dp := Config.freeDatapath s.draws, draws := s.draws + 1 } ∧
        (s.ctrl.ksz ≠ 3 → y = blockResult s)) := by
  unfold execCmdBlock at h
  split at h
  · exact .inl ⟨‹_›, by simpa using h.symm⟩
  · split at h
    · exact .inr (.inl ⟨by simp_all, by simp_all, by simpa using h.symm⟩)
    · split at h
      · exact .inr (.inr (.inl ⟨by simp_all, by simp_all, by simp_all, by simp_all, by simpa using h.symm⟩))
      · obtain ⟨p, d, e, hr⟩ := blockPath_eq s
        refine .inr (.inr (.inr ⟨by simp_all, by simp_all, by simp_all, d.s, ?_, hr⟩))
        rw [e] at h
        simpa [releaseDatapath, storeOutput] using h.symm

/-! ### KEYEXP and LOADIV -/

/-- All that KEYEXP can do (R220). -/
theorem execCmdKeyexp_next {len : Nat} {s t : State} (h : execCmdKeyexp len s = .next t) :
    (s.fault = true ∧ t = s) ∨
    (s.fault = false ∧ s.keyValid = true ∧ t = { s with errCode := .sequence }) ∨
    (s.fault = false ∧ s.keyValid = false ∧ s.ctrl.ksz = 3 ∧ t = raiseFatal .keySize s) ∨
    (s.fault = false ∧ s.keyValid = false ∧ s.ctrl.ksz ≠ 3 ∧ len ≠ nkOf s.ctrl.ksz ∧ t = raiseFatal .keyLength s) ∨
    (s.fault = false ∧ s.keyValid = false ∧ s.ctrl.ksz ≠ 3 ∧ len = nkOf s.ctrl.ksz ∧
      t = { s with
        w := keyExpansion (nkOf s.ctrl.ksz) (nwOf s.ctrl.ksz) (keyOperand s) s.w, keyValid := true, phase := .idle
        dp := Config.freeDatapath s.draws, draws := s.draws + 1 }) := by
  unfold execCmdKeyexp at h
  split at h
  · exact .inl ⟨‹_›, by simpa using h.symm⟩
  · rename_i hf
    split at h
    · rw [raiseError_of_not_fault (by simpa using hf)] at h
      exact .inr (.inl ⟨by simpa using hf, ‹_›, by simpa using h.symm⟩)
    · split at h
      · exact .inr (.inr (.inl ⟨by simp_all, by simp_all, ‹_›, by simpa using h.symm⟩))
      · split at h
        · exact .inr (.inr (.inr (.inl ⟨by simp_all, by simp_all, ‹_›, ‹_›, by simpa using h.symm⟩)))
        · rename_i hk hl
          obtain ⟨i, j, e⟩ := runKeyExpansion_eq s hk
          rw [e] at h
          refine .inr (.inr (.inr (.inr ⟨by simp_all, by simp_all, hk, not_not.mp hl, ?_⟩)))
          simpa [releaseDatapath] using h.symm

/-- All that LOADIV can do (R267). -/
theorem execCmdLoadiv_next {len : Nat} {s t : State} (h : execCmdLoadiv len s = .next t) :
    (s.fault = true ∧ t = s) ∨
    (s.fault = false ∧ s.ctrl.mode = .ecb ∧ t = s) ∨
    (s.fault = false ∧ s.ctrl.mode = .cbc ∧ s.ivValid = true ∧ t = { s with errCode := .sequence }) ∨
    (s.fault = false ∧ s.ctrl.mode = .cbc ∧ s.ivValid = false ∧ len ≠ 4 ∧ t = raiseFatal .ivLength s) ∨
    (s.fault = false ∧ s.ctrl.mode = .cbc ∧ s.ivValid = false ∧ len = 4 ∧
      t = { s with chain := ivOperand s, ivValid := true }) := by
  have hm : s.ctrl.mode ≠ .ecb → s.ctrl.mode = .cbc := by cases s.ctrl.mode <;> simp
  unfold execCmdLoadiv at h
  split at h
  · exact .inl ⟨‹_›, by simpa using h.symm⟩
  · rename_i hf
    split at h
    · exact .inr (.inl ⟨by simpa using hf, ‹_›, by simpa using h.symm⟩)
    · rename_i he
      split at h
      · rw [raiseError_of_not_fault (by simpa using hf)] at h
        exact .inr (.inr (.inl ⟨by simpa using hf, hm he, ‹_›, by simpa using h.symm⟩))
      · split at h
        · exact .inr (.inr (.inr (.inl ⟨by simpa using hf, hm he, by simp_all, ‹_›, by simpa using h.symm⟩)))
        · rename_i hl
          exact .inr (.inr (.inr (.inr ⟨by simpa using hf, hm he, by simp_all, not_not.mp hl, by simpa using h.symm⟩)))

/-! ### Every instruction -/

/-- A reserved opcode writes ERRCODE at most (R265). -/
theorem reservedCommand_eq (s : State) :
    reservedCommand s = .next { s with errCode := if s.fault then s.errCode else .illegalCmd } := by
  rw [reservedCommand, raiseError_eq]

/-- The kinds of effect an instruction can have: a read, no effect, a register write, a recorded reserved opcode, the
start of a run, CLEAR, or one of the three checked commands. -/
theorem exec_next {i : Instr} {s t : State} (h : exec i s = .next t) :
    (∃ v, t = respond v s) ∨ t = s ∨
    (∃ j v, i = .wrKey j v ∧ t = writeKey j v s) ∨ (∃ j v, i = .wrIv j v ∧ t = writeIv j v s) ∨
    (∃ j v, i = .wrDin j v ∧ t = writeDin j v s) ∨ (∃ x, i = .wrRkidx x ∧ t = writeRkidx x s) ∨
    t = { s with errCode := if s.fault then s.errCode else .illegalCmd } ∨
    (∃ ksz dir mode, i = .wrCtrl ksz dir mode ∧ t = startRun ⟨ksz, dir, mode⟩ s) ∨
    (i = .cmdClear ∧ t = clearAll s) ∨ (∃ len, i = .cmdKeyexp len ∧ execCmdKeyexp len s = .next t) ∨
    (∃ len, i = .cmdLoadiv len ∧ execCmdLoadiv len s = .next t) ∨ (i = .cmdBlock ∧ execCmdBlock s = .next t) := by
  cases i <;> simp only [exec] at h
  case rdCtrl => exact .inl ⟨_, by simpa [execRdCtrl] using h.symm⟩
  case rdCmd => exact .inl ⟨_, by simpa [execRdCmd] using h.symm⟩
  case rdStatus => exact .inl ⟨_, by simpa [execRdStatus] using h.symm⟩
  case rdRkidx => exact .inl ⟨_, by simpa [execRdRkidx] using h.symm⟩
  case rdRkdata => exact .inl ⟨_, by simpa [execRdRkdata] using h.symm⟩
  case rdRsvd5 => exact .inl ⟨_, by simpa [execRdRsvd5] using h.symm⟩
  case rdRsvd67 => exact .inl ⟨_, by simpa [execRdRsvd67] using h.symm⟩
  case rdKey => exact .inl ⟨_, by simpa [execRdKey] using h.symm⟩
  case rdIv => exact .inl ⟨_, by simpa [execRdIv] using h.symm⟩
  case rdDin => exact .inl ⟨_, by simpa [execRdDin] using h.symm⟩
  case rdDout => exact .inl ⟨_, by simpa [execRdDout] using h.symm⟩
  case rdChain => exact .inl ⟨_, by simpa [execRdChain] using h.symm⟩
  case wrCtrl => simp_all [execWrCtrl]
  case wrKey => simp_all [execWrKey]
  case wrIv => simp_all [execWrIv]
  case wrDin => simp_all [execWrDin]
  case wrRkidx => simp_all [execWrRkidx]
  case cmdKeyexp => simp_all
  case cmdLoadiv => simp_all
  case cmdBlock => simp_all
  case cmdClear => simp_all [execCmdClear]
  case cmdNop => simp_all [execCmdNop]
  case wrStatus => simp_all [execWrStatus]
  case wrRkdata => simp_all [execWrRkdata]
  case wrRsvd5 => simp_all [execWrRsvd5]
  case wrRsvd67 => simp_all [execWrRsvd67]
  case wrDout => simp_all [execWrDout]
  case wrChain => simp_all [execWrChain]
  all_goals
    simp only [execCmdRsvd4, execCmdRsvd5, execCmdRsvd6, execCmdRsvd7, execCmdRsvd8, execCmdRsvd9, execCmdRsvdA,
      execCmdRsvdB, execCmdRsvdC, execCmdRsvdD, execCmdRsvdE, reservedCommand_eq] at h
    simp_all

/-- Every instruction answers a next state. -/
theorem exec_answers (i : Instr) (s : State) : ∃ t, exec i s = .next t := by
  cases i <;> simp only [exec] <;> first | exact ⟨_, rfl⟩ | skip
  all_goals simp only [execCmdKeyexp, execCmdLoadiv, execCmdBlock]
  all_goals (repeat' split) <;> exact ⟨_, rfl⟩

end Sys2Proof.Machine
end

