-- ==== Sys2Proof/Laws/Decode.lean ====
section
/-! SUPPORT. Laws of transaction words: their three fields, and the bits that select a row of the opcode table. -/

namespace Sys2Proof

/-! ### The fields of a word (R100) -/

/-- Bit i of a word, by its fields. -/
theorem getLsbD_transactionWord (we : Bool) (a : BitVec 5) (v : Word) (i : Nat) :
    (transactionWord we a v).getLsbD i =
      if i < 32 then v.getLsbD i else if i - 32 < 5 then a.getLsbD (i - 32) else (BitVec.ofBool we).getLsbD (i - 37) := by
  change BitVec.getLsbD (w := 1 + 5 + 32) (BitVec.ofBool we ++ a ++ v) i = _
  simp only [BitVec.getLsbD_append, Nat.sub_sub]

@[simp] theorem weOf_transactionWord (we : Bool) (a : BitVec 5) (v : Word) : weOf (transactionWord we a v) = we := by
  rw [weOf, getLsbD_transactionWord]
  cases we <;> rfl

@[simp] theorem addrOf_transactionWord (we : Bool) (a : BitVec 5) (v : Word) : addrOf (transactionWord we a v) = a := by
  apply BitVec.eq_of_getLsbD_eq
  intro i hi
  rw [addrOf, BitVec.getLsbD_extractLsb', getLsbD_transactionWord, if_neg (by omega), if_pos (by omega)]
  simp [hi]

@[simp] theorem dataOf_transactionWord (we : Bool) (a : BitVec 5) (v : Word) : dataOf (transactionWord we a v) = v := by
  apply BitVec.eq_of_getLsbD_eq
  intro i hi
  rw [dataOf, BitVec.getLsbD_extractLsb', getLsbD_transactionWord, if_pos (by omega)]
  simp [hi]

/-- Every word is its three fields. -/
theorem transactionWord_fields (t : Transaction) : transactionWord (weOf t) (addrOf t) (dataOf t) = t := by
  apply BitVec.eq_of_getLsbD_eq
  intro i hi
  rw [getLsbD_transactionWord]
  simp only [weOf, addrOf, dataOf, BitVec.getLsbD_extractLsb', BitVec.getLsbD_ofBool]
  by_cases h1 : i < 32
  · simp [h1]
  · by_cases h2 : i - 32 < 5
    · simp [h1, h2, show 32 + (i - 32) = i by omega]
    · have : i = 37 := by omega
      subst this; simp

/-- The decoder sees a word through its fields. -/
@[simp] theorem decode_transactionWord (we : Bool) (a : BitVec 5) (v : Word) :
    decode (transactionWord we a v) = if we then decodeWrite a v else decodeRead a := by
  simp [decode]

/-! ### The fields of a command word (R104) -/

/-- Bit i of a command word. -/
theorem getLsbD_commandWord (op : BitVec 4) (len i : Nat) :
    (commandWord op len).getLsbD i =
      if i < 4 then op.getLsbD i
      else if i - 4 < 4 then false
      else if i - 8 < 4 then (BitVec.ofNat 4 len).getLsbD (i - 8) else false := by
  change BitVec.getLsbD (w := 20 + 4 + 4 + 4) ((0 : BitVec 20) ++ BitVec.ofNat 4 len ++ (0 : BitVec 4) ++ op) i = _
  simp only [BitVec.getLsbD_append, Nat.sub_sub]
  split
  · rfl
  · split
    · simp
    · split <;> simp

@[simp] theorem opOf_commandWord (op : BitVec 4) (len : Nat) : opOf (commandWord op len) = op := by
  apply BitVec.eq_of_getLsbD_eq
  intro i hi
  rw [opOf, BitVec.getLsbD_extractLsb', getLsbD_commandWord, if_pos (by omega)]
  simp [hi]

@[simp] theorem lenOf_commandWord (op : BitVec 4) (len : Nat) : lenOf (commandWord op len) = len % 16 := by
  rw [show len % 16 = (BitVec.ofNat 4 len).toNat from rfl, lenOf]
  congr 1
  apply BitVec.eq_of_getLsbD_eq
  intro i hi
  rw [BitVec.getLsbD_extractLsb', getLsbD_commandWord, if_neg (by omega), if_neg (by omega), if_pos (by omega)]
  simp [hi]

/-! ### The bits that select a row (R103, R118) -/

/-- WE, ADDR and OP: every mask of the table lies within these bits. -/
def rowBits : Transaction := 0x3F0000000F

theorem opcodeTable_mask_le_rowBits : ∀ r ∈ opcodeTable, rowBits &&& r.mask = r.mask := by
  decide +kernel

/-- A row is selected by WE, ADDR and OP alone. -/
theorem selectedRows_and_rowBits (t : Transaction) : selectedRows t = selectedRows (t &&& rowBits) := by
  simp only [selectedRows]
  congr 1
  apply List.filter_congr
  intro r hr
  rw [BitVec.and_assoc, opcodeTable_mask_le_rowBits r hr]

/-- A word without the bits that select nothing. -/
def rowKey (we : Bool) (a : BitVec 5) (op : BitVec 4) : Transaction := BitVec.ofBool we ++ a ++ (0 : BitVec 28) ++ op

theorem transactionWord_and_rowBits (we : Bool) (a : BitVec 5) (v : Word) :
    transactionWord we a v &&& rowBits = rowKey we a (v.extractLsb' 0 4) := by
  apply BitVec.eq_of_getLsbD_eq
  intro i hi
  rw [BitVec.getLsbD_and]
  change (BitVec.getLsbD (w := 1 + 5 + 32) (BitVec.ofBool we ++ a ++ v) i && rowBits.getLsbD i) =
    BitVec.getLsbD (w := 1 + 5 + 28 + 4) (BitVec.ofBool we ++ a ++ (0 : BitVec 28) ++ v.extractLsb' 0 4) i
  have hb : ∀ i : Fin 38, rowBits.getLsbD i.val = (decide (i.val < 4) || decide (32 ≤ i.val)) := by decide +kernel
  rw [hb ⟨i, hi⟩]
  simp only [BitVec.getLsbD_append, BitVec.getLsbD_extractLsb', Nat.sub_sub]
  by_cases h1 : i < 4
  · simp [h1, show i < 32 by omega]
  · by_cases h2 : i < 32
    · simp [h1, h2, show ¬ 32 ≤ i by omega, show i - 4 < 28 by omega]
    · simp [h1, h2, show 32 ≤ i by omega, show ¬ i - 4 < 28 by omega]

/-- The rows a word selects, from its WE, ADDR and OP. -/
theorem selectedRows_transactionWord (we : Bool) (a : BitVec 5) (v : Word) :
    selectedRows (transactionWord we a v) = selectedRows (rowKey we a (v.extractLsb' 0 4)) := by
  rw [selectedRows_and_rowBits, transactionWord_and_rowBits]

end Sys2Proof
end

