-- ==== Sys2Proof/Laws/PerInstr.lean ====
section
/-! SUPPORT. Statements made per instruction. Family EncodeInRow: the word the encoder gives an instruction selects
that instruction's row of the opcode table and no other (30_encoding R111, R118). -/

namespace Sys2Proof.Laws.EncodeInRow

/-- The rows that the instruction's word selects are its own row alone. -/
def Statement (i : Instr) : Prop := selectedRows (encode i) = [i.row]

/-- A command word selects the row of its OP, whatever its LEN. -/
theorem encodeCommand_row (op : BitVec 4) (len : Nat) :
    selectedRows (encodeCommand op len) = [13 + op.toNat] := by
  rw [encodeCommand, selectedRows_transactionWord, ← opOf, opOf_commandWord]
  revert op
  decide +kernel

theorem rdCtrl : Statement (.rdCtrl) := by
  unfold Statement
  decide +kernel

theorem rdCmd : Statement (.rdCmd) := by
  unfold Statement
  decide +kernel

theorem rdStatus : Statement (.rdStatus) := by
  unfold Statement
  decide +kernel

theorem rdRkidx : Statement (.rdRkidx) := by
  unfold Statement
  decide +kernel

theorem rdRkdata : Statement (.rdRkdata) := by
  unfold Statement
  decide +kernel

theorem rdRsvd5 : Statement (.rdRsvd5) := by
  unfold Statement
  decide +kernel

theorem rdRsvd67 (j : Fin 2) : Statement (.rdRsvd67 j) := by
  revert j
  unfold Statement
  decide +kernel

theorem rdKey (j : Fin 8) : Statement (.rdKey j) := by
  revert j
  unfold Statement
  decide +kernel

theorem rdIv (j : Fin 4) : Statement (.rdIv j) := by
  revert j
  unfold Statement
  decide +kernel

theorem rdDin (j : Fin 4) : Statement (.rdDin j) := by
  revert j
  unfold Statement
  decide +kernel

theorem rdDout (j : Fin 4) : Statement (.rdDout j) := by
  revert j
  unfold Statement
  decide +kernel

theorem rdChain (j : Fin 4) : Statement (.rdChain j) := by
  revert j
  unfold Statement
  decide +kernel

theorem wrCtrl (ksz : BitVec 2) (dir : Direction) (mode : ChainMode) : Statement (.wrCtrl ksz dir mode) := by
  rw [Statement, encode, selectedRows_transactionWord, Instr.row]
  generalize BitVec.extractLsb' 0 4 _ = op
  revert op
  decide +kernel

theorem cmdNop : Statement (.cmdNop) := encodeCommand_row _ _

theorem cmdKeyexp (len : Nat) : Statement (.cmdKeyexp len) := encodeCommand_row _ _

theorem cmdLoadiv (len : Nat) : Statement (.cmdLoadiv len) := encodeCommand_row _ _

theorem cmdBlock : Statement (.cmdBlock) := encodeCommand_row _ _

theorem cmdRsvd4 : Statement (.cmdRsvd4) := encodeCommand_row _ _

theorem cmdRsvd5 : Statement (.cmdRsvd5) := encodeCommand_row _ _

theorem cmdRsvd6 : Statement (.cmdRsvd6) := encodeCommand_row _ _

theorem cmdRsvd7 : Statement (.cmdRsvd7) := encodeCommand_row _ _

theorem cmdRsvd8 : Statement (.cmdRsvd8) := encodeCommand_row _ _

theorem cmdRsvd9 : Statement (.cmdRsvd9) := encodeCommand_row _ _

theorem cmdRsvdA : Statement (.cmdRsvdA) := encodeCommand_row _ _

theorem cmdRsvdB : Statement (.cmdRsvdB) := encodeCommand_row _ _

theorem cmdRsvdC : Statement (.cmdRsvdC) := encodeCommand_row _ _

theorem cmdRsvdD : Statement (.cmdRsvdD) := encodeCommand_row _ _

theorem cmdRsvdE : Statement (.cmdRsvdE) := encodeCommand_row _ _

theorem cmdClear : Statement (.cmdClear) := encodeCommand_row _ _

theorem wrStatus : Statement (.wrStatus) := by
  unfold Statement
  decide +kernel

theorem wrRkidx (index : BitVec 6) : Statement (.wrRkidx index) := by
  rw [Statement, encode, selectedRows_transactionWord, Instr.row]
  generalize BitVec.extractLsb' 0 4 _ = op
  revert op
  decide +kernel

theorem wrRkdata : Statement (.wrRkdata) := by
  unfold Statement
  decide +kernel

theorem wrRsvd5 : Statement (.wrRsvd5) := by
  unfold Statement
  decide +kernel

theorem wrRsvd67 (j : Fin 2) : Statement (.wrRsvd67 j) := by
  revert j
  unfold Statement
  decide +kernel

theorem wrKey (j : Fin 8) (v : Word) : Statement (.wrKey j v) := by
  rw [Statement, encode, selectedRows_transactionWord, Instr.row]
  generalize BitVec.extractLsb' 0 4 _ = op
  revert j op
  decide +kernel

theorem wrIv (j : Fin 4) (v : Word) : Statement (.wrIv j v) := by
  rw [Statement, encode, selectedRows_transactionWord, Instr.row]
  generalize BitVec.extractLsb' 0 4 _ = op
  revert j op
  decide +kernel

theorem wrDin (j : Fin 4) (v : Word) : Statement (.wrDin j v) := by
  rw [Statement, encode, selectedRows_transactionWord, Instr.row]
  generalize BitVec.extractLsb' 0 4 _ = op
  revert j op
  decide +kernel

theorem wrDout (j : Fin 4) : Statement (.wrDout j) := by
  revert j
  unfold Statement
  decide +kernel

theorem wrChain (j : Fin 4) : Statement (.wrChain j) := by
  revert j
  unfold Statement
  decide +kernel

end Sys2Proof.Laws.EncodeInRow
end

