-- ==== Sys2Proof/Laws/Runs.lean ====
section
/-! SUPPORT. Laws of runs: the state after an instruction, after sequences of them, and after a transaction at the
port. -/

namespace Sys2Proof.Machine

theorem exec_eq_after (i : Instr) (s : State) : exec i s = .next (after i s) := by
  obtain ⟨t, h⟩ := exec_answers i s
  simp [after, h]

theorem after_of_exec {i : Instr} {s t : State} (h : exec i s = .next t) : after i s = t := by
  simp [after, h]

theorem afterAll_append (is js : List Instr) (s : State) : afterAll (is ++ js) s = afterAll js (afterAll is s) := by
  induction is generalizing s with
  | nil => rfl
  | cons i is ih => exact ih (after i s)

/-- The port's view of an instruction when BUSY = 0. -/
theorem perform_of_not_busy {t : Transaction} {s : State} (h : s.busy = false) :
    perform t s = after (decode t) { s with rdata := none } := by
  simp only [perform, transact, h, Bool.false_eq_true, false_and, if_false]
  rw [exec_eq_after]

/-- Writing the four DIN registers of a block loads the block (R77, R315). -/
theorem blockOfRegs_set (x : Block) (v : Vector Word 4) :
    blockOfRegs ((((v.set 0 (pack x.c0)).set 1 (pack x.c1)).set 2 (pack x.c2)).set 3 (pack x.c3)) = x := by
  simp [blockOfRegs]

namespace Timing

theorem run_append (p : Params) (m : Impl) (es fs : List PinEvent) : run p m (es ++ fs) = run p (run p m es) fs := by
  induction es generalizing m with
  | nil => rfl
  | cons e es ih => exact ih (pinStep p m e)

end Timing

end Sys2Proof.Machine
end

