-- ==== Sys2Proof/Laws/Schedule.lean ====
section
/-! SUPPORT. Laws of the key-schedule store: which words a step of the expander writes and reads, and which words the
round pipelines read. -/

namespace Sys2Proof

/-! ### One word -/

theorem scheduleWord_setIfInBounds (w : Vector AesWord 60) (i k : Nat) (v : AesWord) (hi : i < 60) :
    scheduleWord (w.setIfInBounds i v) k = if k = i then v else scheduleWord w k := by
  by_cases h : k = i
  · subst h
    simp [scheduleWord, hi]
  · simp [scheduleWord, h, Vector.getElem?_setIfInBounds_ne (Ne.symm h)]

theorem scheduleWord_expandStep (nk i k : Nat) (w : Vector AesWord 60) (hi : i < 60) :
    scheduleWord (expandStep nk i w) k =
      if k = i then (scheduleWord w (i - nk)).xor (scheduleTemp nk i (scheduleWord w (i - 1)))
      else scheduleWord w k := by
  rw [expandStep, scheduleWord_setIfInBounds _ _ _ _ hi]

/-! ### The loops of Listing KX-1 -/

/-- Words outside those that the second loop counts through keep their values. -/
theorem scheduleWord_expandFrom_of_not_mem (nk n i : Nat) (w : Vector AesWord 60) (hn : i + n ≤ 60) (k : Nat)
    (hk : k < i ∨ i + n ≤ k) : scheduleWord (expandFrom nk n i w) k = scheduleWord w k := by
  induction n generalizing i w with
  | zero => rfl
  | succ n ih =>
    rw [expandFrom, ih (i + 1) _ (by omega) (by omega), scheduleWord_expandStep _ _ _ _ (by omega),
      if_neg (by omega)]

/-- A word that the second loop counts through is its step's value, over the final words. -/
theorem scheduleWord_expandFrom_of_mem (nk n i : Nat) (w : Vector AesWord 60) (hn : i + n ≤ 60) (hnk : 1 ≤ nk)
    (hi : nk ≤ i) (k : Nat) (hk : i ≤ k) (hkn : k < i + n) :
    scheduleWord (expandFrom nk n i w) k =
      (scheduleWord (expandFrom nk n i w) (k - nk)).xor
        (scheduleTemp nk k (scheduleWord (expandFrom nk n i w) (k - 1))) := by
  induction n generalizing i w with
  | zero => omega
  | succ n ih =>
    rw [expandFrom]
    by_cases h : k = i
    · subst h
      rw [scheduleWord_expandFrom_of_not_mem _ _ _ _ (by omega) k (by omega),
        scheduleWord_expandFrom_of_not_mem _ _ _ _ (by omega) (k - nk) (by omega),
        scheduleWord_expandFrom_of_not_mem _ _ _ _ (by omega) (k - 1) (by omega),
        scheduleWord_expandStep _ _ _ _ (by omega), scheduleWord_expandStep _ _ _ _ (by omega),
        scheduleWord_expandStep _ _ _ _ (by omega), if_pos rfl, if_neg (by omega), if_neg (by omega)]
    · exact ih (i + 1) _ (by omega) (by omega) (by omega) (by omega)

/-- The first loop writes the key words and nothing else. -/
theorem scheduleWord_copyKeyWords (key : Vector AesWord 8) (n : Nat) (w : Vector AesWord 60) (hn : n ≤ 8) (k : Nat) :
    scheduleWord (copyKeyWords key n w) k = if k < n then key[k]?.getD AesWord.zero else scheduleWord w k := by
  induction n with
  | zero => simp [copyKeyWords]
  | succ n ih =>
    rw [copyKeyWords, scheduleWord_setIfInBounds _ _ _ _ (by omega), ih (by omega)]
    by_cases h : k = n
    · subst h; simp
    · simp only [if_neg h, show (k < n + 1) = (k < n) by simp; omega]

/-! ### What the expansion depends on -/

/-- The words below NW do not depend on what W held before. -/
theorem keyExpansion_congr {nk nw : Nat} (hk : 1 ≤ nk) (hk8 : nk ≤ 8) (hnw : nw ≤ 60) (hle : nk ≤ nw)
    (key : Vector AesWord 8) (w w' : Vector AesWord 60) (k : Nat) (h : k < nw) :
    scheduleWord (keyExpansion nk nw key w) k = scheduleWord (keyExpansion nk nw key w') k := by
  induction k using Nat.strong_induction_on with
  | _ k ih =>
    unfold keyExpansion at *
    by_cases hlt : k < nk
    · rw [scheduleWord_expandFrom_of_not_mem _ _ _ _ (by omega) k (by omega),
        scheduleWord_expandFrom_of_not_mem _ _ _ _ (by omega) k (by omega),
        scheduleWord_copyKeyWords _ _ _ hk8, scheduleWord_copyKeyWords _ _ _ hk8, if_pos hlt, if_pos hlt]
    · rw [scheduleWord_expandFrom_of_mem _ _ _ _ (by omega) hk le_rfl k (by omega) (by omega),
        scheduleWord_expandFrom_of_mem nk _ _ (copyKeyWords key nk w') (by omega) hk le_rfl k (by omega) (by omega),
        ih (k - nk) (by omega) (by omega), ih (k - 1) (by omega) (by omega)]

/-! ### What the round pipelines read -/

theorem addRoundKey_congr {w w' : Vector AesWord 60} {k : Nat}
    (h : ∀ i, i < 4 * (k + 1) → scheduleWord w i = scheduleWord w' i) (s : Block) :
    addRoundKey w k s = addRoundKey w' k s := by
  simp only [addRoundKey, roundKey, Block.ofCols]
  rw [h _ (show 4 * k + (0 : Fin 4).val < _ by simp), h _ (show 4 * k + (1 : Fin 4).val < _ by simp; omega),
    h _ (show 4 * k + (2 : Fin 4).val < _ by simp; omega), h _ (show 4 * k + (3 : Fin 4).val < _ by simp; omega)]

theorem fullRounds_congr {w w' : Vector AesWord 60} (n : Nat)
    (h : ∀ i, i < 4 * (n + 1) → scheduleWord w i = scheduleWord w' i) (s : Block) :
    fullRounds w n s = fullRounds w' n s := by
  induction n with
  | zero => rfl
  | succ n ih =>
    rw [fullRounds, fullRounds, ih fun i hi => h i (by omega), fullRound, fullRound, addRoundKey_congr h]

theorem invFullRounds_congr {w w' : Vector AesWord 60} (n : Nat)
    (h : ∀ i, i < 4 * (n + 1) → scheduleWord w i = scheduleWord w' i) (s : Block) :
    invFullRounds w n s = invFullRounds w' n s := by
  induction n generalizing s with
  | zero => rfl
  | succ n ih =>
    rw [invFullRounds, invFullRounds, ih fun i hi => h i (by omega), invFullRound, invFullRound, addRoundKey_congr h]

/-- Cipher reads the words W[0..4·(Nr+1)−1] only. -/
theorem cipher_congr {w w' : Vector AesWord 60} {nr : Nat}
    (h : ∀ i, i < 4 * (nr + 1) → scheduleWord w i = scheduleWord w' i) (x : Block) : cipher w nr x = cipher w' nr x := by
  rw [cipher, cipher, finalRound, finalRound, fullRounds_congr (nr - 1) fun i hi => h i (by omega),
    addRoundKey_congr (k := 0) fun i hi => h i (by omega), addRoundKey_congr h]

/-- InvCipher reads the words W[0..4·(Nr+1)−1] only. -/
theorem invCipher_congr {w w' : Vector AesWord 60} {nr : Nat}
    (h : ∀ i, i < 4 * (nr + 1) → scheduleWord w i = scheduleWord w' i) (y : Block) :
    invCipher w nr y = invCipher w' nr y := by
  rw [invCipher, invCipher, invFullRounds_congr (nr - 1) fun i hi => h i (by omega),
    addRoundKey_congr (k := 0) fun i hi => h i (by omega), addRoundKey_congr h]

end Sys2Proof
end

