-- ==== Sys2Proof/Tests/Slice0.lean ====
section
/-! SUPPORT. Tests: the WellFormed smoke, words of the spec's encodings, steps with results that the spec writes out (the
rule or vector is named at each), and a witness for the hypotheses of each statement of Certificates/Slice0. -/

namespace Sys2Proof.Tests

set_option Elab.async false

open Sys2Proof.Machine

/-! ### Helpers -/

/-- The state after transactions at the port, the first first. -/
def port (ts : List Transaction) (s : State) : State := ts.foldl (fun s t => perform t s) s

/-- What the last of some transactions returned. -/
def lastOf (ts : List Transaction) (s : State) : Option Word := (port ts s).rdata

/-- The block of 32 hexadecimal digits, as four registers. -/
def blockHex (a b c d : Word) : Block := blockOfRegs #v[a, b, c, d]

/-- A state with a key of this configuration (of an unspecified schedule) and, in CBC, an IV. -/
def readyState (ksz : BitVec 2) (dir : Direction) (mode : ChainMode) : State :=
  { State.reset with ctrl := ⟨ksz, dir, mode⟩, keyValid := true, ivValid := decide (mode = .cbc) }

/-- A state in the fatal state. -/
def fatalState : State := { State.reset with fault := true, errCode := .noKey }

/-- The text of a string as bytes, for the adapter. -/
def text (cs : List Char) : List Byte := cs.map fun c => BitVec.ofNat 8 c.toNat

/-- The key of E1 as transactions: WR KEY0 to WR KEY3 and CMD KEYEXP, 4 (95_test_vectors P1). -/
def loadE1 : List Transaction := [0x2800010203, 0x2904050607, 0x2A08090A0B, 0x2B0C0D0E0F, 0x2100000401]

/-- The key of R271 as transactions. -/
def load2B7E : List Transaction := [0x282B7E1516, 0x2928AED2A6, 0x2AABF71588, 0x2B09CF4F3C, 0x2100000401]

/-- The IV of R271 as transactions, WR IV0 to WR IV3 and CMD LOADIV, 4. -/
def loadIvR271 : List Transaction := [0x3000010203, 0x3104050607, 0x3208090A0B, 0x330C0D0E0F, 0x2100000402]

/-- The plaintext of E1 as transactions, WR DIN0 to WR DIN3 and CMD BLOCK. -/
def blockE1 : List Transaction := [0x3400112233, 0x3544556677, 0x368899AABB, 0x37CCDDEEFF, 0x2100000003]

/-- The first block of R271 as transactions. -/
def blockR271 : List Transaction := [0x346BC1BEE2, 0x352E409F96, 0x36E93D7E11, 0x377393172A, 0x2100000003]

/-! ### WellFormed -/

/-- LEN has 4 bits (R106). -/
theorem test_wellFormed_keyexp : (Instr.cmdKeyexp 15).wellFormed = true ∧ (Instr.cmdKeyexp 16).wellFormed = false := by
  decide

/-- LEN has 4 bits (R106). -/
theorem test_wellFormed_loadiv : (Instr.cmdLoadiv 15).wellFormed = true ∧ (Instr.cmdLoadiv 16).wellFormed = false := by
  decide

/-! ### Words of the encodings -/

/-- The reads: WE = 0, ADDR in bits 36:32; DATA is ignored (R100, R101, R111). -/
theorem test_decode_reads :
    decode 0x0000000000 = .rdCtrl ∧ decode 0x0100000000 = .rdCmd ∧ decode 0x0200000000 = .rdStatus ∧
    decode 0x0300000000 = .rdRkidx ∧ decode 0x0400000000 = .rdRkdata ∧ decode 0x0500000000 = .rdRsvd5 ∧
    decode 0x0600000000 = .rdRsvd67 0 ∧ decode 0x0700000000 = .rdRsvd67 1 ∧ decode 0x0B00000000 = .rdKey 3 ∧
    decode 0x0F00000000 = .rdKey 7 ∧ decode 0x1200000000 = .rdIv 2 ∧ decode 0x1500000000 = .rdDin 1 ∧
    decode 0x1B00000000 = .rdDout 3 ∧ decode 0x1CFFFFFFFF = .rdChain 0 := by
  decide +kernel

/-- The commands: OP in DATA[3:0], LEN in DATA[11:8], the other bits ignored (R104, R105, R264). -/
theorem test_decode_commands :
    decode 0x2100000000 = .cmdNop ∧ decode 0x21FFFFFFF0 = .cmdNop ∧ decode 0x2100000401 = .cmdKeyexp 4 ∧
    decode 0x21FFFFF8F1 = .cmdKeyexp 8 ∧ decode 0x2100000F02 = .cmdLoadiv 15 ∧ decode 0x2100000003 = .cmdBlock ∧
    decode 0x2100000004 = .cmdRsvd4 ∧ decode 0x2100000005 = .cmdRsvd5 ∧ decode 0x2100000006 = .cmdRsvd6 ∧
    decode 0x2100000007 = .cmdRsvd7 ∧ decode 0x2100000008 = .cmdRsvd8 ∧ decode 0x2100000009 = .cmdRsvd9 ∧
    decode 0x210000000A = .cmdRsvdA ∧ decode 0x210000000B = .cmdRsvdB ∧ decode 0x210000000C = .cmdRsvdC ∧
    decode 0x210000000D = .cmdRsvdD ∧ decode 0x210000000E = .cmdRsvdE ∧ decode 0x210000000F = .cmdClear := by
  decide +kernel

/-- The register writes (R107, R108, R109, R116 and the words of 95_test_vectors section 8). -/
theorem test_decode_writes :
    decode 0x2000000009 = .wrCtrl 1 .encrypt .cbc ∧ decode 0x20FFFFFFF5 = .wrCtrl 1 .decrypt .ecb ∧
    decode 0x22FFFFFFFF = .wrStatus ∧ decode 0x2300012345 = .wrRkidx 5 ∧ decode 0x24DEADBEEF = .wrRkdata ∧
    decode 0x2500000001 = .wrRsvd5 ∧ decode 0x2612345678 = .wrRsvd67 0 ∧ decode 0x2700000001 = .wrRsvd67 1 ∧
    decode 0x2B0C0D0E0F = .wrKey 3 0x0C0D0E0F ∧ decode 0x3208090A0B = .wrIv 2 0x08090A0B ∧
    decode 0x3400112233 = .wrDin 0 0x00112233 ∧ decode 0x3812345678 = .wrDout 0 ∧ decode 0x3F12345678 = .wrChain 3 := by
  decide +kernel

/-- The canonical words of R116 and of the rules' examples. -/
theorem test_encode :
    encode (.rdDout 2) = 0x1A00000000 ∧ encode (.wrKey 3 0x0C0D0E0F) = 0x2B0C0D0E0F ∧
    encode (.cmdKeyexp 4) = 0x2100000401 ∧ encode (.wrCtrl 1 .encrypt .cbc) = 0x2000000009 ∧
    encode (.wrRkidx 43) = 0x230000002B ∧ encode .cmdClear = 0x210000000F := by
  decide +kernel

/-- A listing is five bytes with bits 39:38 zero (R100; log 11). -/
theorem test_decodeBytes :
    decodeBytes [0x21, 0x00, 0x00, 0x04, 0x01] = .ok (.cmdKeyexp 4) ∧
    decodeBytes [0x21, 0x00, 0x00, 0x04] = .error .wrongLength ∧
    decodeBytes [0x61, 0x00, 0x00, 0x04, 0x01] = .error .paddingNotZero ∧
    decodeBytes (bytesOf 0x2B0C0D0E0F) = .ok (.wrKey 3 0x0C0D0E0F) := by
  decide +kernel

/-- The host's entry points on R116's KEYEXP word. -/
theorem test_decodeTableWord :
    decodeTableWord 40 0x2100000401 = some (.cmdKeyexp 4) ∧ decodeTableWord 40 0x6100000401 = none := by
  decide +kernel

/-! ### Tables and transforms -/

/-- R141, R142 and section 2 of 95_test_vectors. -/
theorem test_field : xtime 0x57 = 0xAE ∧ xtime 0x80 = 0x1B ∧ xtime 0xFF = 0xE5 ∧ gmul 0x57 0x13 = 0xFE ∧
    gmul 0x57 0x83 = 0xC1 ∧ gmul 0x0D 0x53 = 0xAA ∧ mulTable 11 0xFF = 0xA3 ∧ sbox 0x53 = 0xED ∧
    invSbox 0xFF = 0x7D ∧ rcon 10 = 0x36 ∧ gfInverse 0x53 = 0xCA := by
  decide +kernel

/-- The examples of R171 to R174. -/
theorem test_forward_transforms :
    subBytes (blockHex 0x00102030 0x40506070 0x8090A0B0 0xC0D0E0F0) =
      blockHex 0x63CAB704 0x0953D051 0xCD60E0E7 0xBA70E18C ∧
    shiftRows (blockHex 0x63CAB704 0x0953D051 0xCD60E0E7 0xBA70E18C) =
      blockHex 0x6353E08C 0x0960E104 0xCD70B751 0xBACAD0E7 ∧
    mixColumns (blockHex 0x6353E08C 0x0960E104 0xCD70B751 0xBACAD0E7) =
      blockHex 0x5F726415 0x57F5BC92 0xF7BE3B29 0x1DB9F91A := by
  decide +kernel

/-- The examples of R191, R192 and R194. -/
theorem test_inverse_transforms :
    invShiftRows (blockHex 0x7AD5FDA7 0x89EF4E27 0x2BCA100B 0x3D9FF59F) =
      blockHex 0x7A9F1027 0x89D5F50B 0x2BEFFD9F 0x3DCA4EA7 ∧
    invSubBytes (blockHex 0x7A9F1027 0x89D5F50B 0x2BEFFD9F 0x3DCA4EA7) =
      blockHex 0xBD6E7C3D 0xF2B5779E 0x0B61216E 0x8B10B689 ∧
    invMixColumns (blockHex 0xE9F74EEC 0x023020F6 0x1BF2CCF2 0x353C21C7) =
      blockHex 0x54D990A1 0x6BA09AB5 0x96BBF40E 0xA111702F := by
  decide +kernel

/-- The examples of R211 and R212, and the step of R217 for Nk = 8. -/
theorem test_word_operations :
    rotWord (unpack 0x0C0D0E0F) = unpack 0x0D0E0F0C ∧ subWord (unpack 0x0D0E0F0C) = unpack 0xD7AB76FE ∧
    scheduleTemp 8 12 (unpack 0xA572C09C) = unpack 0x0640BADE := by
  decide +kernel

/-! ### Reads (vectors V8 and the rules' examples) -/

/-- R300: after WR CTRL, 0xFFFFFFFF. -/
theorem test_rdCtrl : lastOf [0x20FFFFFFFF, 0x0000000000] State.reset = some 0x0000000F := by decide +kernel

/-- R301. -/
theorem test_rdCmd : lastOf [0x2100000007, 0x0100000000] State.reset = some 0 := by decide +kernel

/-- V8.1. -/
theorem test_rdStatus : lastOf [0x0200000000] State.reset = some 0x004A0000 := by decide +kernel

/-- R302: a 256-bit CBC encryption run with its key and no IV. -/
theorem test_rdStatus_256 : lastOf [0x200000000A, 0x2100000801, 0x0200000000] State.reset = some 0x008E0001 := by
  decide +kernel

/-- V8.5 and R304. -/
theorem test_rdRkidx : lastOf [0x23FFFFFFFF, 0x0300000000] State.reset = some 0x3F ∧
    lastOf [0x2300012345, 0x0300000000] State.reset = some 5 := by decide +kernel

/-- V8.13 to V8.16. -/
theorem test_rdRkdata :
    lastOf (loadE1 ++ [0x2300000004, 0x0400000000]) State.reset = some 0xD6AA74FD ∧
    lastOf (loadE1 ++ [0x230000002B, 0x0400000000]) State.reset = some 0x4D2B30C5 ∧
    lastOf (loadE1 ++ [0x230000002C, 0x0400000000]) State.reset = some 0 ∧
    lastOf [0x2300000000, 0x0400000000] State.reset = some 0 := by decide +kernel

/-- V8.3 and V8.9. -/
theorem test_rdRsvd : lastOf [0x0500000000] State.reset = some 0 ∧
    lastOf [0x2612345678, 0x0600000000] State.reset = some 0 ∧
    lastOf [0x2700000001, 0x0700000000] State.reset = some 0 := by decide +kernel

/-- V8.10. -/
theorem test_rdKey : lastOf [0x2FDEADBEEF, 0x0F00000000] State.reset = some 0xDEADBEEF := by decide +kernel

/-- V8.11. -/
theorem test_rdIv : lastOf [0x3208090A0B, 0x1200000000] State.reset = some 0x08090A0B := by decide +kernel

/-- R314. -/
theorem test_rdDin : lastOf [0x3544556677, 0x1500000000] State.reset = some 0x44556677 := by decide +kernel

/-- R316. -/
theorem test_rdDout : lastOf (loadE1 ++ blockE1 ++ [0x1800000000]) State.reset = some 0x69C4E0D8 := by decide +kernel

/-- R318. -/
theorem test_rdChain :
    lastOf ([0x2000000008] ++ load2B7E ++ loadIvR271 ++ blockR271 ++ [0x1C00000000]) State.reset = some 0x7649ABAC := by
  decide +kernel

/-! ### Writes -/

/-- R261: WR CTRL, 0x9 from the fatal state. -/
theorem test_wrCtrl : lastOf [0x2000000009, 0x0200000000] fatalState = some 0x006C0000 := by decide +kernel

/-- A CTRL write keeps KEY, IV, DIN and RKIDX, and clears DOUT and CHAIN (R261). -/
theorem test_wrCtrl_frame :
    let s : State := { State.reset with key := Vector.replicate 8 7, rkidx := 5, dout := Vector.replicate 4 9 }
    ((after (.wrCtrl 0 .encrypt .ecb) s).key, (after (.wrCtrl 0 .encrypt .ecb) s).rkidx,
      (after (.wrCtrl 0 .encrypt .ecb) s).dout) = (Vector.replicate 8 7, 5, Vector.replicate 4 0) := by decide +kernel

/-- V8.6. -/
theorem test_wrStatus : lastOf [0x22FFFFFFFF, 0x0200000000] State.reset = some 0x004A0000 := by decide +kernel

/-- R305. -/
theorem test_wrRkidx : (port [0x230000002B] State.reset).rkidx = 43 := by decide +kernel

/-- R307, R309. -/
theorem test_wrRkdata_wrRsvd : port [0x24DEADBEEF, 0x2500000001, 0x2700000001] State.reset = State.reset := by
  decide +kernel

/-- R311. -/
theorem test_wrKey : (port [0x282B7E1516] State.reset).key[0] = 0x2B7E1516 := by decide +kernel

/-- R313: in the fatal state too (R320). -/
theorem test_wrIv : (port [0x330C0D0E0F] fatalState).iv = #v[0, 0, 0, 0x0C0D0E0F] := by decide +kernel

/-- V8.12. -/
theorem test_wrDin : lastOf [0x3400112233, 0x1400000000] State.reset = some 0x00112233 := by decide +kernel

/-- V8.7 and V8.8. -/
theorem test_wrDout_wrChain : lastOf [0x3812345678, 0x1800000000] State.reset = some 0 ∧
    lastOf [0x3F12345678, 0x1F00000000] State.reset = some 0 := by decide +kernel

/-! ### Commands -/

/-- R264: in the fatal state too. -/
theorem test_cmdNop : port [0x21FFFFFFF0] fatalState = fatalState := by decide +kernel

/-- R220: the example. -/
theorem test_cmdKeyexp : lastOf (loadE1 ++ [0x0200000000]) State.reset = some 0x004A0001 := by decide +kernel

/-- R367: KSZ = 3 and LEN = 0 reports KEY_SIZE (code 5) with FAULT. -/
theorem test_cmdKeyexp_priority : lastOf [0x2000000003, 0x2100000001, 0x0200000000] State.reset = some 0x00000508 := by
  decide +kernel

/-- R267: the example. -/
theorem test_cmdLoadiv :
    lastOf ([0x2000000008] ++ loadIvR271 ++ [0x1C00000000]) State.reset = some 0x00010203 ∧
    lastOf ([0x2000000008] ++ loadIvR271 ++ [0x0200000000]) State.reset = some 0x004A0002 := by decide +kernel

/-- R267 (2): in ECB, LOADIV with a wrong LEN is no error. -/
theorem test_cmdLoadiv_ecb : lastOf [0x2100000102, 0x0200000000] State.reset = some 0x004A0000 := by decide +kernel

/-- R270: the example. -/
theorem test_cmdBlock :
    (port (loadE1 ++ blockE1) State.reset).dout = #v[0x69C4E0D8, 0x6A7B0430, 0xD8CDB780, 0x70B4C55A] ∧
    lastOf (loadE1 ++ blockE1 ++ [0x0200000000]) State.reset = some 0x004A0005 := by decide +kernel

/-- R273: CBC decryption of the first ciphertext block of R271; CHAIN becomes that block. -/
theorem test_cmdBlock_cbc_decrypt :
    let s := port ([0x200000000C] ++ load2B7E ++ loadIvR271 ++
      [0x347649ABAC, 0x358119B246, 0x36CEE98E9B, 0x3712E9197D, 0x2100000003]) State.reset
    s.dout = #v[0x6BC1BEE2, 0x2E409F96, 0xE93D7E11, 0x7393172A] ∧
      s.chain = blockHex 0x7649ABAC 0x8119B246 0xCEE98E9B 0x12E9197D := by decide +kernel

/-- R265: the example, and OPE. -/
theorem test_reserved : lastOf [0x2100000007, 0x0200000000] State.reset = some 0x004A0600 ∧
    lastOf [0x210000000E, 0x0200000000] State.reset = some 0x004A0600 ∧
    lastOf [0x2100000004, 0x0200000000] fatalState = some 0x004A0308 := by decide +kernel

/-- Each of the 11 values behaves identically (R265). -/
theorem test_reserved_all : ∀ i ∈ reservedOpcodes, (after i State.reset).errCode = .illegalCmd := by decide +kernel

/-- R274: the example. -/
theorem test_cmdClear : lastOf (loadE1 ++ blockE1 ++ [0x210000000F, 0x0200000000]) State.reset = some 0x004A0000 ∧
    (port (loadE1 ++ [0x210000000F]) State.reset).key = Vector.replicate 8 0 := by decide +kernel

/-! ### The step, timing, the adapter and the assembler -/

/-- The placed word runs as the first instruction after reset. -/
theorem test_step_withFetchWord : step (State.reset.withFetchWord 40 0x2B0C0D0E0F) =
    exec (.wrKey 3 0x0C0D0E0F) State.reset := by rfl

/-- While BUSY = 1 a write is ignored and BUSY_ACCESS (code 8) recorded (R411). -/
theorem test_busy_write :
    (perform 0x2B0C0D0E0F { State.reset with busy := true }).errCode = .busyAccess ∧
    (perform 0x2B0C0D0E0F { State.reset with busy := true }).key = Vector.replicate 8 0 := by decide +kernel

/-- Parameters of an implementation. -/
def slowParams : Timing.Params := ⟨⟨3, 2, fun nr _ => nr, 1⟩, .asyncLow⟩

/-- KEYEXP holds BUSY for LAT_KEYEXP cycles: bit 4 of STATUS (R46). -/
theorem test_timing_busy :
    let m := Timing.run slowParams ⟨State.reset, 0, false⟩ [.transaction 0x2100000401, .cycle, .cycle]
    (Timing.pinStep slowParams m (.transaction 0x0200000000)).core.rdata = some 0x004A0011 ∧
    (Timing.run slowParams m [.cycle, .transaction 0x0200000000]).core.rdata = some 0x004A0001 := by decide +kernel

/-- The ECB example of R343, with the lowercase key and the uppercase block line; 33 bytes of output. -/
theorem test_adapter_ecb :
    (Adapter.adapter ⟨128, .encrypt, .ecb⟩ ⟨.skip, .skip⟩
      (text "000102030405060708090a0b0c0d0e0f\n00112233445566778899AABBCCDDEEFF\n".toList) State.reset).output =
      text "69C4E0D86A7B0430D8CDB78070B4C55A\n".toList := by decide +kernel

/-- The CBC example of R343: the line `hello` is skipped and does not affect chaining. -/
theorem test_adapter_cbc :
    (Adapter.adapter ⟨128, .encrypt, .cbc⟩ ⟨.fatal, .zeroBlock⟩
      (text ("2B7E151628AED2A6ABF7158809CF4F3C\n000102030405060708090A0B0C0D0E0F\n".toList ++
        "6BC1BEE22E409F96E93D7E117393172A\nhello\nAE2D8A571E03AC9C9EB76FAC45AF8E51".toList)) State.reset).output =
      text "7649ABAC8119B246CEE98E9B12E9197D\n5086CB9B507219EE95DB113A917678B2\n".toList := by decide +kernel

/-- A 32-character key line in a 192-bit configuration: KEY_LENGTH from the core, no output (R343). -/
theorem test_adapter_keyLength :
    let o := Adapter.adapter ⟨192, .encrypt, .ecb⟩ ⟨.skip, .skip⟩
      (text "000102030405060708090a0b0c0d0e0f\n00112233445566778899AABBCCDDEEFF\n".toList) State.reset
    o.output = [] ∧ o.error = some .keyLength ∧ o.core.fault = true := by decide +kernel

/-- R115, R116: statements, comments and raw opcodes. -/
theorem test_assembler :
    Assembler.assemble ["RD DOUT2".toList, "WR KEY3, 0x0C0D0E0F ; the last word".toList, "CMD KEYEXP, 4".toList,
      "".toList, "CMD OP7".toList, "CFG 192, ENC, CBC".toList] =
      some [0x1A00000000, 0x2B0C0D0E0F, 0x2100000401, 0x2100000007, 0x2000000009] := by decide +kernel

/-- R117: an LDKEY of another digit count is an assembly error. -/
theorem test_assembler_ldkey : Assembler.assemble ["LDKEY 00010203".toList] = none := by decide +kernel

/-! ### Witnesses for the hypotheses of the statements -/

/-- DecodeOfEncode: well-formed instructions, LEN at its largest. -/
theorem witness_DecodeOfEncode : (Instr.cmdKeyexp 15).wellFormed = true ∧ Instr.rdCtrl.wellFormed = true := by decide

/-- DecodeUsesOnlyTheNamedFields: two command words with one OP, two reads with different DATA. -/
theorem witness_DecodeUsesOnlyTheNamedFields :
    let t : Transaction := 0x2100000401
    let u : Transaction := 0x21FFFFF8F1
    (t ≠ u ∧ weOf t = weOf u ∧ addrOf t = addrOf u ∧ weOf t = true ∧ addrOf t = 1 ∧ opOf (dataOf t) = opOf (dataOf u)) ∧
    weOf 0x1F00000000 = false ∧ weOf 0x1F00000001 = false ∧ addrOf 0x1F00000000 = addrOf 0x1F00000001 := by
  decide +kernel

/-- StepRunsTheDecodedTransaction: a ready port with an input, and a table word. -/
theorem witness_StepRunsTheDecodedTransaction :
    let s := State.reset.withFetchWord 38 0x2100000003
    s.busy = false ∧ s.inputs = [.transaction 0x2100000003] ∧ decodeTableWord 38 0x2100000003 = some .cmdBlock := by
  decide +kernel

/-- EveryStepGoesOn: an idle port. -/
theorem witness_EveryStepGoesOn : State.reset.inputs = [] := rfl

/-- AccessWhileBusy: a write, a read and a STATUS read while BUSY = 1. -/
theorem witness_AccessWhileBusy :
    let s (t : Transaction) : State := { State.reset with busy := true, inputs := [.transaction t] }
    (s 0x2100000003).busy = true ∧ weOf 0x2100000003 = true ∧ (s 0x2100000003).inputs = [.transaction 0x2100000003] ∧
    weOf 0x1F00000000 = false ∧ decode 0x1F00000000 ≠ .rdStatus ∧ decode 0x0200000000 = .rdStatus := by decide +kernel

/-- WindowRead: the last word of the schedule for each key size, and the first index past it. -/
theorem witness_WindowRead :
    (let s : State := { readyState 0 .encrypt .ecb with rkidx := 43 }
     s.rkidx.toNat = (43 : Fin 60).val ∧ s.keyValid = true ∧ s.ctrl.ksz ≠ 3 ∧
       (43 : Fin 60).val < 44 + 8 * s.ctrl.ksz.toNat) ∧
    (let s : State := { readyState 2 .encrypt .ecb with rkidx := 59 }
     s.rkidx.toNat = (59 : Fin 60).val ∧ s.keyValid = true ∧ s.ctrl.ksz ≠ 3 ∧
       (59 : Fin 60).val < 44 + 8 * s.ctrl.ksz.toNat) ∧
    (let s : State := { readyState 0 .encrypt .ecb with rkidx := 44 }
     44 + 8 * s.ctrl.ksz.toNat ≤ s.rkidx.toNat) ∧
    State.reset.keyValid = false ∧ (readyState 3 .encrypt .ecb).ctrl.ksz = 3 := by decide +kernel

/-- ReadsHaveNoSideEffect: a read word. -/
theorem witness_ReadsHaveNoSideEffect : weOf 0x1F00000000 = false := by decide +kernel

/-- ReadsAfterReset: the three states. -/
theorem witness_ReadsAfterReset : State.reset = State.reset ∧ resetInput fatalState = resetInput fatalState ∧
    exec .cmdClear fatalState = .next (clearAll fatalState) := ⟨rfl, rfl, rfl⟩

/-- NopDoesNothing: R264's corner word. -/
theorem witness_NopDoesNothing : opOf 0xFFFFFFF0 = 0 := by decide +kernel

/-- ReservedOpcodes: the first and the last opcode, and members of the list. -/
theorem witness_ReservedOpcodes : (opOf 0x4).toNat = 4 ∧ (opOf 0xFFFFF0FE).toNat = 14 ∧
    Instr.cmdRsvd4 ∈ reservedOpcodes ∧ Instr.cmdRsvdE ∈ reservedOpcodes := by decide +kernel

/-- KeyexpCommand: a state for each clause; LEN at Nk for KSZ = 2 and one below. -/
theorem witness_KeyexpCommand :
    fatalState.fault = true ∧
    ((readyState 0 .encrypt .ecb).fault = false ∧ (readyState 0 .encrypt .ecb).keyValid = true) ∧
    (let s : State := { State.reset with ctrl := ⟨3, .encrypt, .ecb⟩ }
     s.fault = false ∧ s.keyValid = false ∧ s.ctrl.ksz = 3) ∧
    (let s : State := { State.reset with ctrl := ⟨2, .encrypt, .ecb⟩ }
     s.fault = false ∧ s.keyValid = false ∧ s.ctrl.ksz ≠ 3 ∧ 7 ≠ 4 + 2 * s.ctrl.ksz.toNat ∧
       8 = 4 + 2 * s.ctrl.ksz.toNat) := by decide +kernel

/-- KeyExpansionFollowsItsListing: the three lengths, with the first and the last index of each clause. -/
theorem witness_KeyExpansionFollowsItsListing :
    (8 = 4 ∧ 60 = 44 ∨ 8 = 6 ∧ 60 = 52 ∨ 8 = 8 ∧ 60 = 60) ∧ (7 : Fin 8).val < 8 ∧ 8 ≤ 8 ∧ 8 < 60 ∧ 8 ≤ 59 ∧ 59 < 60 ∧
    (4 = 4 ∧ 44 = 44 ∨ 4 = 6 ∧ 44 = 52 ∨ 4 = 8 ∧ 44 = 60) ∧ 44 ≤ 44 ∧ 44 < 60 ∧ 44 ≤ 59 := by decide

/-- LoadivCommand: a state for each clause; LEN 4 and 3. -/
theorem witness_LoadivCommand :
    fatalState.fault = true ∧ (State.reset.fault = false ∧ State.reset.ctrl.mode = .ecb) ∧
    (let s := readyState 0 .encrypt .cbc
     s.fault = false ∧ s.ctrl.mode = .cbc ∧ s.ivValid = true) ∧
    (let s : State := { State.reset with ctrl := ⟨0, .encrypt, .cbc⟩ }
     s.fault = false ∧ s.ctrl.mode = .cbc ∧ s.ivValid = false ∧ 3 ≠ 4) := by decide +kernel

/-- BlockChecks: a state for each clause. -/
theorem witness_BlockChecks :
    fatalState.fault = true ∧ (State.reset.fault = false ∧ State.reset.keyValid = false) ∧
    (let s : State := { readyState 0 .encrypt .cbc with ivValid := false }
     s.fault = false ∧ s.keyValid = true ∧ s.ctrl.mode = .cbc ∧ s.ivValid = false) ∧
    (let s := readyState 0 .encrypt .cbc
     s.fault = false ∧ s.keyValid = true ∧ (s.ctrl.mode = .cbc → s.ivValid = true)) := by decide +kernel

/-- BlockEcb: a ready ECB state, of each key size and direction. -/
theorem witness_BlockEcb : BlockReady (readyState 0 .encrypt .ecb) ∧ (readyState 0 .encrypt .ecb).ctrl.mode = .ecb ∧
    BlockReady (readyState 2 .decrypt .ecb) ∧ (readyState 2 .decrypt .ecb).ctrl.mode = .ecb :=
  ⟨⟨rfl, rfl, by decide, by decide⟩, rfl, ⟨rfl, rfl, by decide, by decide⟩, rfl⟩

/-- BlockCbcEncrypt: a ready CBC encryption state. -/
theorem witness_BlockCbcEncrypt : BlockReady (readyState 1 .encrypt .cbc) ∧
    (readyState 1 .encrypt .cbc).ctrl.mode = .cbc ∧ (readyState 1 .encrypt .cbc).ctrl.dir = .encrypt :=
  ⟨⟨rfl, rfl, by decide, by decide⟩, rfl, rfl⟩

/-- BlockCbcDecrypt: a ready CBC decryption state. -/
theorem witness_BlockCbcDecrypt : BlockReady (readyState 2 .decrypt .cbc) ∧
    (readyState 2 .decrypt .cbc).ctrl.mode = .cbc ∧ (readyState 2 .decrypt .cbc).ctrl.dir = .decrypt :=
  ⟨⟨rfl, rfl, by decide, by decide⟩, rfl, rfl⟩

/-- CbcErrorPropagation: a ready CBC decryption state, and the block before the changed one in a stream that it begins
and in one where it is the third. -/
theorem witness_CbcErrorPropagation : BlockReady (readyState 0 .decrypt .cbc) ∧
    (readyState 0 .decrypt .cbc).ctrl.mode = .cbc ∧ (readyState 0 .decrypt .cbc).ctrl.dir = .decrypt ∧
    ([] : List Block).getLastD (readyState 0 .decrypt .cbc).chain = Block.zero ∧
    [blockHex 1 2 3 4, blockHex 5 6 7 8].getLastD (readyState 0 .decrypt .cbc).chain = blockHex 5 6 7 8 :=
  ⟨⟨rfl, rfl, by decide, by decide⟩, rfl, rfl, rfl, rfl⟩

/-- ClearCommandAndResetInput: a reset is the host's next input. -/
theorem witness_ClearCommandAndResetInput :
    let s : State := { fatalState with inputs := [.reset, .transaction 0x0200000000] }
    s.inputs = .reset :: [.transaction 0x0200000000] := rfl

/-- FatalIsPrecise: BLOCK after reset. -/
theorem witness_FatalIsPrecise : exec .cmdBlock State.reset = .next (after .cmdBlock State.reset) ∧
    State.reset.fault = false ∧ (after .cmdBlock State.reset).fault = true := ⟨rfl, rfl, rfl⟩

/-- FatalStateIsLeftOnlyByCtrlClearOrReset: a command without effect, a data-register write and a CTRL write. -/
theorem witness_FatalStateIsLeftOnlyByCtrlClearOrReset :
    (exec (.cmdKeyexp 4) fatalState = .next fatalState ∧ fatalState.fault = true) ∧
    (exec (.wrKey 7 1) fatalState = .next (after (.wrKey 7 1) fatalState) ∧ staysInRun (.wrKey 7 1) = true) ∧
    (exec (.wrCtrl 3 .decrypt .cbc) fatalState = .next (after (.wrCtrl 3 .decrypt .cbc) fatalState) ∧
      staysInRun (.wrCtrl 3 .decrypt .cbc) = false) := ⟨⟨rfl, rfl⟩, ⟨rfl, rfl⟩, ⟨rfl, rfl⟩⟩

/-- KeyValidRule: KEYEXP sets it, NOP keeps it, a CTRL write clears it. -/
theorem witness_KeyValidRule :
    (exec (.cmdKeyexp 4) State.reset = .next (after (.cmdKeyexp 4) State.reset) ∧ State.reset.keyValid = false ∧
      (after (.cmdKeyexp 4) State.reset).keyValid = true) ∧
    (exec .cmdNop (readyState 0 .encrypt .ecb) = .next (readyState 0 .encrypt .ecb) ∧ staysInRun .cmdNop = true ∧
      (readyState 0 .encrypt .ecb).keyValid = true) ∧
    (exec .cmdClear (readyState 0 .encrypt .ecb) = .next (clearAll (readyState 0 .encrypt .ecb)) ∧
      staysInRun .cmdClear = false) :=
  ⟨⟨exec_eq_after _ _, rfl, by decide +kernel⟩, ⟨rfl, rfl, rfl⟩, ⟨rfl, rfl⟩⟩

/-- IvValidRule: LOADIV sets it. -/
theorem witness_IvValidRule :
    let s : State := { State.reset with ctrl := ⟨0, .encrypt, .cbc⟩ }
    exec (.cmdLoadiv 4) s = .next (after (.cmdLoadiv 4) s) ∧ s.ivValid = false ∧ (after (.cmdLoadiv 4) s).ivValid = true ∧
      (s.ivValid = true → s.ctrl.mode = .cbc) ∧ staysInRun (.cmdLoadiv 4) = true ∧
      (readyState 0 .encrypt .cbc).ivValid = true :=
  ⟨rfl, rfl, rfl, by simp, rfl, rfl⟩

/-- OutValidRule: BLOCK sets it; BLOCK without a key clears it. -/
theorem witness_OutValidRule :
    (exec .cmdBlock (readyState 0 .encrypt .ecb) = .next (after .cmdBlock (readyState 0 .encrypt .ecb)) ∧
      (readyState 0 .encrypt .ecb).outValid = false ∧ (after .cmdBlock (readyState 0 .encrypt .ecb)).outValid = true) ∧
    (let s : State := { State.reset with outValid := true }
     exec .cmdBlock s = .next (after .cmdBlock s) ∧ s.outValid = true ∧ (after .cmdBlock s).outValid = false ∧
       s.fault = false ∧ (after .cmdBlock s).fault = true) :=
  ⟨⟨exec_eq_after _ _, rfl, by decide +kernel⟩, ⟨rfl, rfl, rfl, rfl, rfl⟩⟩

/-- ErrCodeRule: a reserved opcode, a fatal error, a CTRL write. -/
theorem witness_ErrCodeRule :
    (exec .cmdRsvd4 State.reset = .next (after .cmdRsvd4 State.reset) ∧
      (after .cmdRsvd4 State.reset).errCode ≠ State.reset.errCode) ∧
    (exec .cmdBlock State.reset = .next (after .cmdBlock State.reset) ∧
      (after .cmdBlock State.reset).errCode ≠ State.reset.errCode) ∧
    (exec (.wrCtrl 0 .encrypt .ecb) fatalState = .next (after (.wrCtrl 0 .encrypt .ecb) fatalState) ∧
      staysInRun (.wrCtrl 0 .encrypt .ecb) = false ∧
      (after (.wrCtrl 0 .encrypt .ecb) fatalState).errCode ≠ fatalState.errCode) :=
  ⟨⟨rfl, by decide⟩, ⟨rfl, by decide⟩, ⟨rfl, rfl, by decide⟩⟩

/-- ChainWrittenOnlyByLoadivBlockAndRunStart: LOADIV and a CBC BLOCK change CHAIN. -/
theorem witness_ChainWrittenOnlyByLoadivBlockAndRunStart :
    (let s : State := { State.reset with ctrl := ⟨0, .encrypt, .cbc⟩, iv := #v[1, 0, 0, 0] }
     exec (.cmdLoadiv 4) s = .next (after (.cmdLoadiv 4) s) ∧ (after (.cmdLoadiv 4) s).chain ≠ s.chain ∧
       staysInRun (.cmdLoadiv 4) = true) ∧
    (let s := readyState 0 .encrypt .cbc
     exec .cmdBlock s = .next (after .cmdBlock s) ∧ (after .cmdBlock s).chain ≠ s.chain ∧ staysInRun .cmdBlock = true) ∧
    (exec .cmdClear State.reset = .next (clearAll State.reset) ∧ staysInRun .cmdClear = false) :=
  ⟨⟨rfl, by decide +kernel, rfl⟩, ⟨exec_eq_after _ _, by decide +kernel, rfl⟩, ⟨rfl, rfl⟩⟩

/-- ScheduleWrittenOnlyByKeyexp: KEYEXP of the zero key from reset, and the first word it does not write. -/
theorem witness_ScheduleWrittenOnlyByKeyexp :
    exec (.cmdKeyexp 4) State.reset = .next (after (.cmdKeyexp 4) State.reset) ∧ Instr.cmdKeyexp 4 ≠ .cmdClear ∧
      (after (.cmdKeyexp 4) State.reset).w ≠ State.reset.w ∧ nwOf State.reset.ctrl.ksz ≤ 44 ∧ 44 < 60 :=
  ⟨exec_eq_after _ _, by decide, by decide +kernel, by decide, by decide⟩

/-- OutputWrittenOnlyByBlock: BLOCK with a key, and a fatal BLOCK over an old output. -/
theorem witness_OutputWrittenOnlyByBlock :
    (exec .cmdBlock (readyState 0 .encrypt .ecb) = .next (after .cmdBlock (readyState 0 .encrypt .ecb)) ∧
      (after .cmdBlock (readyState 0 .encrypt .ecb)).dout ≠ (readyState 0 .encrypt .ecb).dout) ∧
    (let s : State := { State.reset with dout := #v[1, 0, 0, 0] }
     exec .cmdBlock s = .next (after .cmdBlock s) ∧ (after .cmdBlock s).dout ≠ s.dout) :=
  ⟨⟨exec_eq_after _ _, by decide +kernel⟩, ⟨rfl, by decide +kernel⟩⟩

/-- OperandRegistersWrittenOnlyByTheHost: each register changed by its write. -/
theorem witness_OperandRegistersWrittenOnlyByTheHost :
    (after (.wrKey 7 1) State.reset).key ≠ State.reset.key ∧ (after (.wrIv 3 1) State.reset).iv ≠ State.reset.iv ∧
    (after (.wrDin 3 1) State.reset).din ≠ State.reset.din ∧
    (after (.wrRkidx 63) State.reset).rkidx ≠ State.reset.rkidx ∧
    (after (.wrCtrl 3 .decrypt .cbc) State.reset).ctrl ≠ State.reset.ctrl ∧ Instr.wrKey 7 1 ≠ .cmdClear := by
  decide +kernel

/-- ScheduleStaysThroughTheRun: KEYEXP from reset, then a key write, a second KEYEXP and a BLOCK. -/
theorem witness_ScheduleStaysThroughTheRun :
    (∀ i ∈ [Instr.wrKey 0 1, .cmdKeyexp 4, .cmdBlock], staysInRun i = true) ∧ State.reset.fault = false ∧
    State.reset.keyValid = false ∧ State.reset.ctrl.ksz ≠ 3 ∧
    exec (.cmdKeyexp (nkOf State.reset.ctrl.ksz)) State.reset =
      .next (after (.cmdKeyexp (nkOf State.reset.ctrl.ksz)) State.reset) :=
  ⟨by decide, rfl, rfl, by decide, exec_eq_after _ _⟩

/-- NoFatalErrorAfterTheFirstBlock: a BLOCK that succeeds, then KEYEXP and LOADIV of wrong lengths. -/
theorem witness_NoFatalErrorAfterTheFirstBlock :
    let s := readyState 0 .encrypt .cbc
    (∀ i ∈ [Instr.cmdKeyexp 0, .cmdLoadiv 0, .cmdBlock], staysInRun i = true) ∧
      exec .cmdBlock s = .next (after .cmdBlock s) ∧ s.fault = false ∧ (after .cmdBlock s).fault = false :=
  ⟨by decide, exec_eq_after _ _, rfl, by decide +kernel⟩

/-- StepKeepsTheInvariants: the reset state with an input meets both invariants and has a next state. -/
theorem witness_StepKeepsTheInvariants :
    let s := State.reset.withFetchWord 38 0x2B0C0D0E0F
    Inv s ∧ RunInv s ∧ step s = exec (.wrKey 3 0x0C0D0E0F) State.reset :=
  ⟨⟨by decide +kernel, fun h => absurd h (by decide +kernel), by decide +kernel, by decide +kernel, by decide +kernel,
    by decide +kernel, by decide +kernel, by decide +kernel⟩, ⟨by decide +kernel, by decide +kernel, by decide +kernel⟩, rfl⟩

/-- UnspecifiedStateIsNotObservable: two states with a key that differ in S, in W[44] and in the counter of free
values. -/
theorem witness_UnspecifiedStateIsNotObservable :
    let s := readyState 0 .encrypt .ecb
    let t : State := { s with dp := { s.dp with s := blockHex 1 2 3 4 }, w := s.w.set 44 ⟨1, 2, 3, 4⟩, draws := 7 }
    LookAlike s t ∧ s.busy = false ∧ (s.keyValid = true → s.ctrl.ksz ≠ 3) :=
  ⟨⟨rfl, rfl, rfl, rfl, rfl, rfl, rfl, rfl, rfl, rfl, rfl, rfl, rfl, rfl, rfl, rfl,
    fun _ => by decide +kernel⟩, rfl, by decide⟩

/-- ProductIsThatOfAField: the smallest and the largest byte that have an inverse. -/
theorem witness_ProductIsThatOfAField : (1 : Byte) ≠ 0 ∧ (0xFF : Byte) ≠ 0 := by decide

/-- CipherFollowsItsListings: the smallest number of rounds. -/
theorem witness_CipherFollowsItsListings : 1 ≤ 1 ∧ 1 ≤ 14 := by decide

/-- InvCipherUndoesCipher: each number of rounds. -/
theorem witness_InvCipherUndoesCipher :
    (10 = 10 ∨ 10 = 12 ∨ 10 = 14) ∧ (12 = 10 ∨ 12 = 12 ∨ 12 = 14) ∧ (14 = 10 ∨ 14 = 12 ∨ 14 = 14) := by decide

/-- RunRoundTrip: the three key sizes. -/
theorem witness_RunRoundTrip : (0 : BitVec 2) ≠ 3 ∧ (1 : BitVec 2) ≠ 3 ∧ (2 : BitVec 2) ≠ 3 := by decide

/-- LatencyIsNotObservable: a host that polls twice during KEYEXP and then issues another transaction. -/
theorem witness_LatencyIsNotObservable :
    let m : Timing.Impl := ⟨State.reset, 0, false⟩
    let es : List Timing.PinEvent :=
      [.transaction 0x2100000401, .transaction 0x0200000000, .cycle, .transaction 0x0200000000, .cycle, .cycle]
    Timing.Polite slowParams m es ∧ Timing.Polite slowParams m (es ++ [.transaction 0x0400000000]) ∧
      decode 0x0400000000 ≠ .rdStatus ∧ (Timing.run slowParams m es).inReset = false := by
  simp only [Timing.Polite, List.cons_append, List.nil_append]
  decide +kernel

/-- BusyLastsForTheLatency: an implementation out of reset with BUSY = 0. -/
theorem witness_BusyLastsForTheLatency :
    let m : Timing.Impl := ⟨State.reset, 0, false⟩
    m.core.busy = false ∧ m.inReset = false := ⟨rfl, rfl⟩

/-- ResetAbortsACommand: the asserted level of each style. -/
theorem witness_ResetAbortsACommand :
    Timing.asserted .syncHigh true = true ∧ Timing.asserted .asyncHigh true = true ∧
    Timing.asserted .syncLow false = true ∧ Timing.asserted slowParams.style false = true := ⟨rfl, rfl, rfl, rfl⟩

/-- MalformedLinesAreSkipped: a lowercase digit, a CR, and the characters next to the set. -/
theorem witness_MalformedLinesAreSkipped :
    ∀ c ∈ ([0x61, 0x0D, 0x2F, 0x3A, 0x40, 0x47] : List Byte),
      ∃ b ∈ [c], ¬ (0x30 ≤ b.toNat ∧ b.toNat ≤ 0x39 ∨ 0x41 ≤ b.toNat ∧ b.toNat ≤ 0x46) := by decide +kernel

/-- ShortLinesAreZeroPadded: R337's line ABC, one character, and 32 characters. -/
theorem witness_ShortLinesAreZeroPadded :
    ((text "ABC".toList).all Adapter.isBlockChar = true ∧ 1 ≤ (text "ABC".toList).length ∧
      (text "ABC".toList).length ≤ 32) ∧
    ((text "F".toList).all Adapter.isBlockChar = true ∧ 1 ≤ (text "F".toList).length) ∧
    (text "00112233445566778899AABBCCDDEEFF".toList).length ≤ 32 := by decide +kernel

/-- ConfigurationErrorsComeBeforeOutput: a run that fails and a run that succeeds. -/
theorem witness_ConfigurationErrorsComeBeforeOutput :
    State.reset.busy = false ∧
    (Adapter.adapter ⟨100, .encrypt, .ecb⟩ ⟨.skip, .skip⟩ [] State.reset).error = some .badKeysize ∧
    (Adapter.adapter ⟨128, .encrypt, .ecb⟩ ⟨.skip, .skip⟩ (text "000102030405060708090a0b0c0d0e0f".toList)
      State.reset).error = none := by decide +kernel

/-- PseudoInstructionsExpand: operands of 32, 48, 64 and 40 digits, and the last digit of the last group. -/
theorem witness_PseudoInstructionsExpand :
    (List.replicate 32 (1 : BitVec 4)).length = 32 ∧ (List.replicate 48 (1 : BitVec 4)).length = 48 ∧
    (List.replicate 64 (1 : BitVec 4)).length = 64 ∧
    ((List.replicate 40 (1 : BitVec 4)).length ≠ 32 ∧ (List.replicate 40 (1 : BitVec 4)).length ≠ 48 ∧
      (List.replicate 40 (1 : BitVec 4)).length ≠ 64) ∧
    7 < 8 ∧ 8 * 7 + 8 ≤ (List.replicate 64 (1 : BitVec 4)).length ∧ 8 * 7 + 7 < 64 := by decide +kernel

end Sys2Proof.Tests
end

/-! PROOFS. The statements about the state (10_state). What an instruction can do is said once, as the relation `Effect`
with a case for each kind of effect; the rules about what may change what and the invariants are case analyses of it.
That unspecified state is not observable is shown by running an instruction on two states that differ in it. -/

namespace Sys2Proof.Machine

/-! ### The effects of an instruction -/

/-- A BLOCK would find its key and, in CBC, its IV (R269). -/
def KeyAndIvReady (s : State) : Prop := s.keyValid = true ∧ (s.ctrl.mode = .cbc → s.ivValid = true)

/-- The state after a KEYEXP whose checks pass (R220). -/
@[simp] def afterExpansion (s : State) : State :=
  { s with
    w := keyExpansion (nkOf s.ctrl.ksz) (nwOf s.ctrl.ksz) (keyOperand s) s.w
    keyValid := true
    phase := .idle
    dp := Config.freeDatapath s.draws
    draws := s.draws + 1 }

/-- The state after a LOADIV whose checks pass (R267). -/
@[simp] def afterIvLoad (s : State) : State := { s with chain := ivOperand s, ivValid := true }

/-- The state after a BLOCK whose checks pass and whose output is y (R270 to R273). -/
@[simp] def afterBlock (y : Block) (s : State) : State :=
  { s with
    dout := regsOfBlock y
    outValid := true
    chain := blockChain s y
    phase := .idle
    dp := Config.freeDatapath s.draws
    draws := s.draws + 1 }

/-- `Effect s i t`: the instruction i may take the state s to t. Each case names the instruction if it is of one kind,
and the checks that it has passed or failed. -/
inductive Effect (s : State) : Instr → State → Prop
  | answered {i : Instr} (v : Word) (stays : staysInRun i = true) : Effect s i (respond v s)
  | unchanged {i : Instr} (stays : staysInRun i = true) : Effect s i s
  | keyWritten (j : Fin 8) (v : Word) : Effect s (.wrKey j v) (writeKey j v s)
  | ivWritten (j : Fin 4) (v : Word) : Effect s (.wrIv j v) (writeIv j v s)
  | dinWritten (j : Fin 4) (v : Word) : Effect s (.wrDin j v) (writeDin j v s)
  | rkidxWritten (x : BitVec 6) : Effect s (.wrRkidx x) (writeRkidx x s)
  | nonFatal {i : Instr} {c : ErrorCode} (code : c = .illegalCmd ∨ c = .sequence) (noFault : s.fault = false)
      (stays : staysInRun i = true) : Effect s i { s with errCode := c }
  | fatal {i : Instr} {c : ErrorCode} (code : c.isFatal = true) (noFault : s.fault = false)
      (notReady : ¬ KeyAndIvReady s) (stays : staysInRun i = true) : Effect s i (raiseFatal c s)
  | runStarted (ksz : BitVec 2) (dir : Direction) (mode : ChainMode) :
      Effect s (.wrCtrl ksz dir mode) (startRun ⟨ksz, dir, mode⟩ s)
  | cleared : Effect s .cmdClear (clearAll s)
  | expanded (noFault : s.fault = false) (noKey : s.keyValid = false) (keySize : s.ctrl.ksz ≠ 3) :
      Effect s (.cmdKeyexp (nkOf s.ctrl.ksz)) (afterExpansion s)
  | ivLoaded (noFault : s.fault = false) (mode : s.ctrl.mode = .cbc) (noIv : s.ivValid = false) :
      Effect s (.cmdLoadiv 4) (afterIvLoad s)
  | blockDone (y : Block) (noFault : s.fault = false) (ready : KeyAndIvReady s)
      (result : s.ctrl.ksz ≠ 3 → y = blockResult s) : Effect s .cmdBlock (afterBlock y s)

/-- What ends a run is a CTRL write or CLEAR (R260). -/
theorem staysInRun_eq_false {i : Instr} (h : staysInRun i = false) :
    (∃ ksz dir mode, i = .wrCtrl ksz dir mode) ∨ i = .cmdClear := by
  cases i
  case wrCtrl ksz dir mode => exact .inl ⟨ksz, dir, mode, rfl⟩
  case cmdClear => exact .inr rfl
  all_goals exact absurd h (by simp [staysInRun])

/-- What ends a run does to the state (R261, R274). -/
theorem exec_of_not_staysInRun {i : Instr} {s t : State} (h : exec i s = .next t) (ends : staysInRun i = false) :
    (∃ ksz dir mode, i = .wrCtrl ksz dir mode ∧ t = startRun ⟨ksz, dir, mode⟩ s) ∨ (i = .cmdClear ∧ t = clearAll s) := by
  rcases staysInRun_eq_false ends with ⟨ksz, dir, mode, rfl⟩ | rfl
  · exact .inl ⟨ksz, dir, mode, rfl, by simpa [exec, execWrCtrl] using h.symm⟩
  · exact .inr ⟨rfl, by simpa [exec, execCmdClear] using h.symm⟩

/-- A non-fatal error is recorded while FAULT = 0 and does nothing otherwise (R364). -/
theorem effect_of_raiseError {i : Instr} {c : ErrorCode} {s : State} (stays : staysInRun i = true)
    (code : c = .illegalCmd ∨ c = .sequence) : Effect s i (raiseError c s) := by
  by_cases hf : s.fault = true
  · rw [raiseError, if_pos hf]
    exact .unchanged stays
  · rw [raiseError, if_neg hf]
    exact .nonFatal code (by simpa using hf) stays

theorem effect_of_execCmdKeyexp {len : Nat} {s t : State} (h : execCmdKeyexp len s = .next t) :
    Effect s (.cmdKeyexp len) t := by
  have notReady : s.keyValid = false → ¬ KeyAndIvReady s := fun hk hr => by simp [hr.1] at hk
  rcases execCmdKeyexp_next h with ⟨-, rfl⟩ | ⟨hf, -, rfl⟩ | ⟨hf, hk, -, rfl⟩ | ⟨hf, hk, -, -, rfl⟩ | ⟨hf, hk, hz, rfl, rfl⟩
  · exact .unchanged rfl
  · exact .nonFatal (.inr rfl) hf rfl
  · exact .fatal rfl hf (notReady hk) rfl
  · exact .fatal rfl hf (notReady hk) rfl
  · exact .expanded hf hk hz

/-- In CBC without an IV no BLOCK is ready. -/
theorem not_keyAndIvReady_of_noIv {s : State} (hm : s.ctrl.mode = .cbc) (hv : s.ivValid = false) :
    ¬ KeyAndIvReady s := fun ⟨_, hr⟩ => by simp [hr hm] at hv

theorem effect_of_execCmdLoadiv {len : Nat} {s t : State} (h : execCmdLoadiv len s = .next t) :
    Effect s (.cmdLoadiv len) t := by
  rcases execCmdLoadiv_next h with ⟨-, rfl⟩ | ⟨-, -, rfl⟩ | ⟨hf, -, -, rfl⟩ | ⟨hf, hm, hv, -, rfl⟩ | ⟨hf, hm, hv, rfl, rfl⟩
  · exact .unchanged rfl
  · exact .unchanged rfl
  · exact .nonFatal (.inr rfl) hf rfl
  · exact .fatal rfl hf (not_keyAndIvReady_of_noIv hm hv) rfl
  · exact .ivLoaded hf hm hv

theorem effect_of_execCmdBlock {s t : State} (h : execCmdBlock s = .next t) : Effect s .cmdBlock t := by
  rcases execCmdBlock_next h with ⟨-, rfl⟩ | ⟨hf, hk, rfl⟩ | ⟨hf, -, hm, hv, rfl⟩ | ⟨hf, hk, hv, y, rfl, hy⟩
  · exact .unchanged rfl
  · exact .fatal rfl hf (fun hr => by simp [hr.1] at hk) rfl
  · exact .fatal rfl hf (not_keyAndIvReady_of_noIv hm hv) rfl
  · exact .blockDone y hf ⟨hk, hv⟩ hy

/-- What an instruction answers is one of its effects. -/
theorem exec_effect {i : Instr} {s t : State} (h : exec i s = .next t) : Effect s i t := by
  by_cases stays : staysInRun i = true
  · rcases exec_next h with ⟨v, rfl⟩ | rfl | ⟨j, v, rfl, rfl⟩ | ⟨j, v, rfl, rfl⟩ | ⟨j, v, rfl, rfl⟩ | ⟨x, rfl, rfl⟩ |
      rfl | ⟨ksz, dir, mode, rfl, rfl⟩ | ⟨rfl, rfl⟩ | ⟨len, rfl, h⟩ | ⟨len, rfl, h⟩ | ⟨rfl, h⟩
    · exact .answered v stays
    · exact .unchanged stays
    · exact .keyWritten j v
    · exact .ivWritten j v
    · exact .dinWritten j v
    · exact .rkidxWritten x
    · rw [← raiseError_eq]
      exact effect_of_raiseError stays (.inl rfl)
    · exact .runStarted ksz dir mode
    · exact .cleared
    · exact effect_of_execCmdKeyexp h
    · exact effect_of_execCmdLoadiv h
    · exact effect_of_execCmdBlock h
  · rcases exec_of_not_staysInRun h (by simpa using stays) with ⟨ksz, dir, mode, rfl, rfl⟩ | ⟨rfl, rfl⟩
    · exact .runStarted ksz dir mode
    · exact .cleared

/-- A BLOCK without a fault and with its key and IV produces output (R44, R269). -/
theorem execCmdBlock_outValid {s t : State} (h : execCmdBlock s = .next t) (hf : s.fault = false)
    (hr : KeyAndIvReady s) : t.outValid = true := by
  obtain ⟨hk, hv⟩ := hr
  rcases execCmdBlock_next h with ⟨hf', -⟩ | ⟨-, hk', -⟩ | ⟨-, -, hm, hv', -⟩ | ⟨-, -, -, y, rfl, -⟩
  · simp [hf] at hf'
  · simp [hk] at hk'
  · simp [hv hm] at hv'
  · rfl

/-! ### What may change what (10_state) -/

/-- Settles O29: the case `expanded` alone sets KEY_VALID, and the two that end a run alone clear it. -/
theorem keyValidRule : Obligations.KeyValidRule := by
  refine ⟨fun i s t h => ?_, fun s => rfl⟩
  cases exec_effect h
  case runStarted => simp [staysInRun]
  case cleared => simp [staysInRun]
  case expanded noFault noKey keySize => exact ⟨nofun, fun _ _ => rfl, fun _ _ => ⟨rfl, noFault, keySize⟩⟩
  all_goals simp_all [staysInRun]

/-- Settles O30: the case `ivLoaded` alone sets IV_VALID, and its check on MODE keeps it 0 in ECB. -/
theorem ivValidRule : Obligations.IvValidRule := by
  refine ⟨fun i s t h => ?_, rfl, fun s => rfl⟩
  cases exec_effect h
  case runStarted => simp [staysInRun]
  case cleared => simp [staysInRun]
  case ivLoaded noFault mode noIv => simp [staysInRun, noFault, mode, ivOperand]
  all_goals simp_all [staysInRun]

/-- Settles O31: the case `blockDone` alone sets OUT_VALID; `fatal` and the two that end a run clear it. -/
theorem outValidRule : Obligations.OutValidRule := by
  refine ⟨fun i s t h => ?_, fun s => rfl⟩
  have blockSets : i = .cmdBlock → s.fault = false → s.keyValid = true → (s.ctrl.mode = .cbc → s.ivValid = true) →
      t.outValid = true := by
    rintro rfl hf hk hv
    exact execCmdBlock_outValid h hf ⟨hk, hv⟩
  cases exec_effect h
  case runStarted => simp [staysInRun]
  case cleared => simp [staysInRun]
  case fatal code noFault notReady stays =>
    exact ⟨fun _ => rfl, fun _ _ => rfl, blockSets, nofun, fun _ _ => .inr ⟨noFault, rfl⟩⟩
  case blockDone y noFault ready result =>
    exact ⟨nofun, fun _ hf => by simp [noFault] at hf, blockSets, fun _ _ => ⟨rfl, noFault, ready⟩, nofun⟩
  all_goals simp_all [staysInRun]

/-- Settles O32: the cases that write ERRCODE are `nonFatal`, `fatal` and the two that end a run. -/
theorem errCodeRule : Obligations.ErrCodeRule := by
  refine ⟨fun i s t h hne => ?_, fun i s t h ends => ?_, fun s => rfl⟩
  · cases exec_effect h
    case runStarted => exact .inl ⟨rfl, rfl⟩
    case cleared => exact .inl ⟨rfl, rfl⟩
    case fatal code noFault notReady stays => exact .inr (.inl ⟨noFault, rfl, code⟩)
    case nonFatal code noFault stays => exact .inr (.inr ⟨noFault, code, rfl⟩)
    all_goals exact absurd rfl hne
  · rcases exec_of_not_staysInRun h ends with ⟨ksz, dir, mode, -, rfl⟩ | ⟨-, rfl⟩
    · rfl
    · rfl

/-- Settles O33: CHAIN after a BLOCK is `blockChain`, so it depends on MODE and DIR. -/
theorem chainWrittenOnlyByLoadivBlockAndRunStart : Obligations.ChainWrittenOnlyByLoadivBlockAndRunStart := by
  intro i s t h
  cases exec_effect h
  case runStarted => simp [staysInRun]
  case cleared => simp [staysInRun]
  case ivLoaded noFault mode noIv => simp [staysInRun, noFault, mode, noIv, ivOperand]
  case blockDone y noFault ready result =>
    cases hm : s.ctrl.mode <;> cases hd : s.ctrl.dir <;>
      simp [staysInRun, noFault, blockChain, hm, hd, dinOperand]
  all_goals simp_all [staysInRun]

/-- Settles O35: `blockDone` writes DOUT; `fatal` and the two that end a run zero it. -/
theorem outputWrittenOnlyByBlock : Obligations.OutputWrittenOnlyByBlock := by
  intro i s t h hne
  cases exec_effect h
  case runStarted => exact .inr ⟨rfl, .inl rfl⟩
  case cleared => exact .inr ⟨rfl, .inl rfl⟩
  case fatal code noFault notReady stays => exact .inr ⟨rfl, .inr ⟨noFault, rfl⟩⟩
  case blockDone => exact .inl ⟨rfl, rfl⟩
  all_goals exact absurd rfl hne

/-- Settles O36: each operand register is written in the one case that names its write. -/
theorem operandRegistersWrittenOnlyByTheHost : Obligations.OperandRegistersWrittenOnlyByTheHost := by
  intro i s t h hclear
  cases exec_effect h
  case keyWritten j v => simp
  case ivWritten j v => simp
  case dinWritten j v => simp
  case rkidxWritten x => simp
  case runStarted ksz dir mode => simp
  case cleared => exact absurd rfl hclear
  all_goals simp

/-- The words from NW on are not the expander's (R218). -/
theorem scheduleWord_keyExpansion_of_le {k : BitVec 2} (h : k ≠ 3) (key : Vector AesWord 8) (w : Vector AesWord 60)
    {n : Nat} (hn : nwOf k ≤ n) :
    scheduleWord (keyExpansion (nkOf k) (nwOf k) key w) n = scheduleWord w n := by
  have sizes := nkOf_nwOf_cases h
  rw [keyExpansion, scheduleWord_expandFrom_of_not_mem _ _ _ _ (by omega) n (by omega),
    scheduleWord_copyKeyWords _ _ _ (by omega), if_neg (by omega)]

/-- Settles O34: the case `expanded` alone writes W outside CLEAR, and the expander stops at NW. -/
theorem scheduleWrittenOnlyByKeyexp : Obligations.ScheduleWrittenOnlyByKeyexp := by
  intro i s t h hclear hne
  cases exec_effect h
  case expanded noFault noKey keySize =>
    exact ⟨rfl, noFault, noKey, rfl, fun k hk _ => scheduleWord_keyExpansion_of_le keySize _ _ hk⟩
  case cleared => exact absurd rfl hclear
  all_goals exact absurd rfl hne

/-! ### The schedule through a run -/

/-- While KEY_VALID is 1 an instruction of the run keeps it, and keeps W (R42, R57). -/
theorem after_keeps_schedule {i : Instr} {s : State} (stays : staysInRun i = true) (hk : s.keyValid = true) :
    (after i s).keyValid = true ∧ (after i s).w = s.w := by
  have h := exec_eq_after i s
  refine ⟨(keyValidRule.1 i s _ h).2.1 stays hk, ?_⟩
  by_contra hne
  have noKey := (scheduleWrittenOnlyByKeyexp i s _ h (by rintro rfl; simp [staysInRun] at stays) hne).2.2.1
  simp [hk] at noKey

/-- So do the instructions of the run together. -/
theorem afterAll_keeps_schedule {is : List Instr} {s : State} (stay : ∀ i ∈ is, staysInRun i = true)
    (hk : s.keyValid = true) : (afterAll is s).keyValid = true ∧ (afterAll is s).w = s.w := by
  induction is generalizing s with
  | nil => exact ⟨hk, rfl⟩
  | cons i is ih =>
    obtain ⟨hk', hw⟩ := after_keeps_schedule (stay i (by simp)) hk
    rw [afterAll, ← hw]
    exact ih (fun j hj => stay j (by simp [hj])) hk'

/-- Settles O37, by induction on the instructions of the run: each keeps KEY_VALID = 1, and with it W. -/
theorem scheduleStaysThroughTheRun : Obligations.ScheduleStaysThroughTheRun := by
  intro is s t stay noFault noKey keySize h
  obtain rfl : t = afterExpansion s := by
    rcases execCmdKeyexp_next h with ⟨hf, -⟩ | ⟨-, hk, -⟩ | ⟨-, -, hz, -⟩ | ⟨-, -, -, hl, -⟩ | ⟨-, -, -, -, rfl⟩
    · simp [noFault] at hf
    · simp [noKey] at hk
    · exact absurd hz keySize
    · exact absurd rfl hl
    · rfl
  exact afterAll_keeps_schedule stay rfl

/-! ### The invariants of R63 -/

/-- Where a run has just begun, the invariants hold. -/
theorem inv_of_runFlags_clear {s : State} (keyValid : s.keyValid = false) (ivValid : s.ivValid = false)
    (fault : s.fault = false) (dout : s.dout = zeroRegs) (chain : s.chain = Block.zero) (busy : s.busy = false) :
    Inv s where
  keySize h := by simp [keyValid] at h
  schedule h := by simp [keyValid] at h
  ivMode h := by simp [ivValid] at h
  faultCode h := by simp [fault] at h
  faultOut h := by simp [fault] at h
  noOut _ := dout
  ecbChain _ := chain
  notBusy := busy

/-- Where there is no output and the sequencer is idle, what R368 rests on holds. -/
theorem runInv_of_noOutput {s : State} (outValid : s.outValid = false) (phase : s.phase = .idle) : RunInv s where
  outKey h := by simp [outValid] at h
  outIv h := by simp [outValid] at h
  phaseIdle := phase

theorem inv_resetInput (s : State) : Inv (resetInput s) := inv_of_runFlags_clear rfl rfl rfl rfl rfl rfl

theorem runInv_resetInput (s : State) : RunInv (resetInput s) := runInv_of_noOutput rfl rfl

/-- Settles O39: at reset a run has just begun and has no output. -/
theorem resetMeetsTheInvariants : Obligations.ResetMeetsTheInvariants :=
  ⟨inv_of_runFlags_clear rfl rfl rfl rfl rfl rfl, runInv_of_noOutput rfl rfl⟩

/-- Every effect keeps the invariants (a) to (g) of R63. -/
theorem Effect.inv {i : Instr} {s t : State} (e : Effect s i t) (h : Inv s) : Inv t := by
  cases e
  case runStarted => exact inv_of_runFlags_clear rfl rfl rfl rfl rfl h.notBusy
  case cleared => exact inv_of_runFlags_clear rfl rfl rfl rfl rfl rfl
  case nonFatal code noFault stays => exact { h with faultCode := fun hf => by simp [noFault] at hf }
  case fatal code noFault notReady stays =>
    exact { h with faultCode := fun _ => code, faultOut := fun _ => ⟨rfl, rfl⟩, noOut := fun _ => rfl }
  case expanded noFault noKey keySize =>
    exact { h with keySize := fun _ => keySize, schedule := fun _ => ⟨keyOperand s, s.w, fun _ _ => rfl⟩ }
  case ivLoaded noFault mode noIv =>
    exact { h with ivMode := fun _ => mode, ecbChain := fun ecb => by simp [mode] at ecb }
  case blockDone y noFault ready result =>
    exact { h with
      faultOut := fun hf => by simp [noFault] at hf
      noOut := fun out => by simp at out
      ecbChain := fun ecb => by simpa [blockChain, show s.ctrl.mode = .ecb from ecb] using h.ecbChain ecb }
  all_goals exact { h with }

/-- Every effect keeps what R368 rests on. -/
theorem Effect.runInv {i : Instr} {s t : State} (e : Effect s i t) (h : RunInv s) : RunInv t := by
  cases e
  case runStarted => exact runInv_of_noOutput rfl h.phaseIdle
  case cleared => exact runInv_of_noOutput rfl rfl
  case fatal => exact runInv_of_noOutput rfl h.phaseIdle
  case expanded => exact { outKey := fun _ => rfl, outIv := h.outIv, phaseIdle := rfl }
  case ivLoaded => exact { h with outIv := fun _ _ => rfl }
  case blockDone y noFault ready result =>
    exact { outKey := fun _ => ready.1, outIv := fun _ => ready.2, phaseIdle := rfl }
  all_goals exact { h with }

/-! ### The step -/

theorem step_of_idle {s : State} (h : s.inputs = []) : step s = .next s := by
  simp [step, portStep, h]

theorem step_of_reset {s : State} {rest : List HostEvent} (h : s.inputs = .reset :: rest) :
    step s = .next (resetInput { s with inputs := rest }) := by
  simp [step, portStep, h]

theorem step_of_transaction {s : State} {t : Transaction} {rest : List HostEvent}
    (h : s.inputs = .transaction t :: rest) :
    step s = if s.busy ∧ decode t ≠ .rdStatus then .next (busyAccess t { s with inputs := rest, rdata := none })
      else exec (decode t) { s with inputs := rest, rdata := none } := by
  simp [step, portStep, transact, h]

/-- All that a step can do: nothing, the reset input, R411's answer while BUSY = 1, or an instruction. -/
theorem step_next {s s' : State} (h : step s = .next s') :
    s' = s ∨ ∃ rest, s' = resetInput { s with inputs := rest } ∨
      ∃ t, s' = busyAccess t { s with inputs := rest, rdata := none } ∨
        exec (decode t) { s with inputs := rest, rdata := none } = .next s' := by
  rcases hin : s.inputs with _ | ⟨t | _, rest⟩
  · rw [step_of_idle hin] at h
    exact .inl (by simpa using h.symm)
  · rw [step_of_transaction hin] at h
    refine .inr ⟨rest, .inr ⟨t, ?_⟩⟩
    split at h
    · exact .inl (by simpa using h.symm)
    · exact .inr h
  · rw [step_of_reset hin] at h
    exact .inr ⟨rest, .inl (by simpa using h.symm)⟩

/-- Settles O6, by what the host does next. -/
theorem everyStepGoesOn : Obligations.EveryStepGoesOn := by
  refine fun s => ⟨?_, step_of_idle⟩
  rcases hin : s.inputs with _ | ⟨t | _, rest⟩
  · exact ⟨_, step_of_idle hin⟩
  · rw [Runs, step_of_transaction hin]
    split
    · exact ⟨_, rfl⟩
    · exact exec_answers _ _
  · exact ⟨_, step_of_reset hin⟩

/-- R411's answer while BUSY = 1 writes ERRCODE only while FAULT = 0, the read data and the model's own counter. -/
theorem busyAccess_eq (t : Transaction) (s : State) :
    ∃ c r n, busyAccess t s = { s with errCode := c, rdata := r, draws := n } ∧ (s.fault = true → c = s.errCode) := by
  unfold busyAccess
  split
  · exact ⟨_, _, _, raiseError_eq .busyAccess s, fun hf => by simp [hf]⟩
  · exact ⟨s.errCode, _, _, rfl, fun _ => rfl⟩

/-- Settles O40, by the cases of a step and, for an instruction, those of its effect. -/
theorem stepKeepsTheInvariants : Obligations.StepKeepsTheInvariants := by
  intro s s' h
  rcases step_next h with rfl | ⟨rest, rfl | ⟨t, rfl | h⟩⟩
  · exact ⟨id, id⟩
  · exact ⟨fun _ => inv_resetInput _, fun _ => runInv_resetInput _⟩
  · obtain ⟨c, r, n, e, hc⟩ := busyAccess_eq t { s with inputs := rest, rdata := none }
    rw [e]
    exact ⟨fun hi => { hi with faultCode := fun hf => by rw [hc hf]; exact hi.faultCode hf }, fun hr => { hr with }⟩
  · exact ⟨fun hi => (exec_effect h).inv { hi with }, fun hr => (exec_effect h).runInv { hr with }⟩

/-! ### Unspecified state (R64) -/

/-- The state s with other contents of what the host cannot see. -/
def withHidden (w : Vector AesWord 60) (d : Config.Datapath) (n : Nat) (s : State) : State :=
  { s with w := w, dp := d, draws := n }

/-- The words of W that the host can see are those of w. -/
def SameSchedule (s : State) (w : Vector AesWord 60) : Prop :=
  s.keyValid = true → ∀ i, i < nwOf s.ctrl.ksz → scheduleWord s.w i = scheduleWord w i

/-- To look alike is to differ in what is hidden only. -/
theorem lookAlike_iff {s t : State} :
    LookAlike s t ↔ t = withHidden t.w t.dp t.draws s ∧ SameSchedule s t.w := by
  constructor
  · intro h
    refine ⟨?_, h.schedule⟩
    obtain ⟨⟩ := h
    cases s
    cases t
    simp_all [withHidden]
  · rintro ⟨h, hw⟩
    rw [h]
    exact ⟨rfl, rfl, rfl, rfl, rfl, rfl, rfl, rfl, rfl, rfl, rfl, rfl, rfl, rfl, rfl, rfl, hw⟩

/-- Two answers are next states that look alike. -/
def Alike (r r' : Result) : Prop := ∃ s' t', r = .next s' ∧ r' = .next t' ∧ LookAlike s' t'

theorem Alike.next {s' t' : State} (h : LookAlike s' t') : Alike (.next s') (.next t') := ⟨s', t', rfl, rfl, h⟩

/-- Two branchings on the same condition answer alike if their branches do. -/
theorem Alike.ite {c : Prop} [Decidable c] {a a' b b' : Result} (pos : c → Alike a a') (neg : ¬ c → Alike b b') :
    Alike (if c then a else b) (if c then a' else b') := by
  split
  · exact pos ‹_›
  · exact neg ‹_›

/-- What the expander and the end of KEYEXP do, put together (R220). -/
theorem keyExpansion_released {s : State} (keySize : s.ctrl.ksz ≠ 3) :
    releaseDatapath { runKeyExpansion s with keyValid := true } = afterExpansion s := by
  obtain ⟨i, j, e⟩ := runKeyExpansion_eq s keySize
  rw [e]
  rfl

/-- What a path and the end of BLOCK do, put together (R270 to R273). -/
theorem blockPath_released {s : State} (keySize : s.ctrl.ksz ≠ 3) :
    releaseDatapath (storeOutput (blockPath s)) = afterBlock (blockResult s) s := by
  obtain ⟨p, d, e, result⟩ := blockPath_eq s
  rw [e, ← result keySize]
  rfl

/-- The words below NW are the expander's, whatever W held before (R218). -/
theorem scheduleWord_keyExpansion_congr {k : BitVec 2} (h : k ≠ 3) (key : Vector AesWord 8) (w w' : Vector AesWord 60)
    {i : Nat} (hi : i < nwOf k) :
    scheduleWord (keyExpansion (nkOf k) (nwOf k) key w) i = scheduleWord (keyExpansion (nkOf k) (nwOf k) key w') i := by
  have sizes := nkOf_nwOf_cases h
  exact keyExpansion_congr (by omega) (by omega) (by omega) (by omega) key w w' i hi

section

variable {w : Vector AesWord 60} {s : State} (same : SameSchedule s w) (d : Config.Datapath) (n : Nat)

include same

/-- States that differ in what is hidden, and agree in the words of W that can be seen, look alike. -/
theorem lookAlike_withHidden : LookAlike s (withHidden w d n s) := lookAlike_iff.2 ⟨rfl, same⟩

/-- RKDATA shows visible words only (R51). -/
theorem rkdataValue_withHidden : rkdataValue (withHidden w d n s) = rkdataValue s := by
  by_cases visible : s.keyValid = true ∧ s.rkidx.toNat < nwOf s.ctrl.ksz
  · simp [rkdataValue, withHidden, visible, same visible.1 _ visible.2]
  · simp [rkdataValue, withHidden, visible]

/-- A BLOCK reads visible words only (R241, R244). -/
theorem blockResult_withHidden (keyValid : s.keyValid = true) (keySize : s.ctrl.ksz ≠ 3) :
    blockResult (withHidden w d n s) = blockResult s := by
  have words : ∀ i, i < 4 * (nrOf s.ctrl.ksz + 1) → scheduleWord w i = scheduleWord s.w i := by
    rw [← (nrOf_nwOf keySize).2]
    exact fun i hi => (same keyValid i hi).symm
  rcases hdir : s.ctrl.dir with _ | _ <;> rcases hmode : s.ctrl.mode with _ | _ <;>
    simp [blockResult, withHidden, dinOperand, hdir, hmode, cipher_congr words, invCipher_congr words]

/-- An error's update shows nothing hidden (R363, R364). -/
theorem raiseFatal_alike (c : ErrorCode) : LookAlike (raiseFatal c s) (raiseFatal c (withHidden w d n s)) :=
  lookAlike_iff.2 ⟨rfl, same⟩

theorem raiseError_alike (c : ErrorCode) : LookAlike (raiseError c s) (raiseError c (withHidden w d n s)) := by
  rw [raiseError_eq, raiseError_eq]
  exact lookAlike_iff.2 ⟨rfl, same⟩

/-- KEYEXP checks what is visible, and the words it writes do not depend on W (R220). -/
theorem execCmdKeyexp_alike (len : Nat) : Alike (execCmdKeyexp len s) (execCmdKeyexp len (withHidden w d n s)) := by
  refine .ite (fun _ => .next (lookAlike_withHidden same d n)) fun _ =>
    .ite (fun _ => .next (raiseError_alike same d n _)) fun _ =>
    .ite (fun _ => .next (raiseFatal_alike same d n _)) fun keySize =>
    .ite (fun _ => .next (raiseFatal_alike same d n _)) fun _ => .next ?_
  rw [keyExpansion_released keySize, keyExpansion_released (s := withHidden w d n s) keySize]
  exact lookAlike_iff.2 ⟨rfl, fun _ i hi => scheduleWord_keyExpansion_congr keySize _ _ _ hi⟩

theorem execCmdLoadiv_alike (len : Nat) : Alike (execCmdLoadiv len s) (execCmdLoadiv len (withHidden w d n s)) :=
  .ite (fun _ => .next (lookAlike_withHidden same d n)) fun _ =>
    .ite (fun _ => .next (lookAlike_withHidden same d n)) fun _ =>
    .ite (fun _ => .next (raiseError_alike same d n _)) fun _ =>
    .ite (fun _ => .next (raiseFatal_alike same d n _)) fun _ => .next (lookAlike_iff.2 ⟨rfl, same⟩)

/-- BLOCK checks what is visible, and its output comes from visible words (R269). -/
theorem execCmdBlock_alike (keySize : s.keyValid = true → s.ctrl.ksz ≠ 3) :
    Alike (execCmdBlock s) (execCmdBlock (withHidden w d n s)) := by
  refine .ite (fun _ => .next (lookAlike_withHidden same d n)) fun _ =>
    .ite (fun _ => .next (raiseFatal_alike same d n _)) fun hasKey =>
    .ite (fun _ => .next (raiseFatal_alike same d n _)) fun _ => .next ?_
  have keyValid : s.keyValid = true := by simpa using hasKey
  rw [blockPath_released (keySize keyValid), blockPath_released (s := withHidden w d n s) (keySize keyValid),
    blockResult_withHidden same d n keyValid (keySize keyValid)]
  exact lookAlike_iff.2 ⟨rfl, same⟩

/-- An instruction takes states that look alike to states that look alike, and answers the same read data. -/
theorem exec_alike (i : Instr) (keySize : s.keyValid = true → s.ctrl.ksz ≠ 3) :
    Alike (exec i s) (exec i (withHidden w d n s)) := by
  cases i
  case rdRkdata =>
    rw [exec, exec, execRdRkdata, execRdRkdata, rkdataValue_withHidden same]
    exact .next (lookAlike_iff.2 ⟨rfl, same⟩)
  case wrCtrl => exact .next (lookAlike_iff.2 ⟨rfl, nofun⟩)
  case cmdClear => exact .next (lookAlike_iff.2 ⟨rfl, nofun⟩)
  case cmdKeyexp len => exact execCmdKeyexp_alike same d n len
  case cmdLoadiv len => exact execCmdLoadiv_alike same d n len
  case cmdBlock => exact execCmdBlock_alike same d n keySize
  case cmdRsvd4 | cmdRsvd5 | cmdRsvd6 | cmdRsvd7 | cmdRsvd8 | cmdRsvd9 | cmdRsvdA | cmdRsvdB | cmdRsvdC | cmdRsvdD |
      cmdRsvdE =>
    exact .next (raiseError_alike same d n .illegalCmd)
  all_goals exact .next (lookAlike_iff.2 ⟨rfl, same⟩)

end

/-- Settles O41: the second state is the first with other hidden contents, and an instruction answers alike on both. -/
theorem unspecifiedStateIsNotObservable : Obligations.UnspecifiedStateIsNotObservable := by
  intro s t alike notBusy keySize
  obtain ⟨ht, same⟩ := lookAlike_iff.1 alike
  generalize t.w = w at ht same
  generalize t.dp = d at ht
  generalize t.draws = n at ht
  subst ht
  rcases hin : s.inputs with _ | ⟨u | _, rest⟩
  · exact ⟨s, _, step_of_idle hin, step_of_idle hin, alike⟩
  · have performed : ¬ (s.busy = true ∧ decode u ≠ .rdStatus) := by simp [notBusy]
    rw [step_of_transaction hin, step_of_transaction (s := withHidden w d n s) hin, if_neg performed,
      if_neg (show ¬ ((withHidden w d n s).busy = true ∧ _) from performed)]
    exact exec_alike (s := { s with inputs := rest, rdata := none }) same d n (decode u) keySize
  · exact ⟨_, _, step_of_reset hin, step_of_reset (s := withHidden w d n s) hin, lookAlike_iff.2 ⟨rfl, nofun⟩⟩

/-! ### Reads after reset (R65) -/

/-- The state holds the reset values, but for what reset leaves unspecified and what is not AESCORE's to clear. -/
def AtReset (s : State) : Prop :=
  s = { State.reset with w := s.w, dp := s.dp, rdata := s.rdata, inputs := s.inputs, draws := s.draws }

/-- The reads are the rows 0 to 11 of the opcode table (R111). -/
theorem row_decodeRead_lt (a : BitVec 5) : (decodeRead a).row < 12 := by
  revert a; decide

theorem decodeRead_eq_rdStatus_iff (a : BitVec 5) : decodeRead a = .rdStatus ↔ a = 0x02 := by
  revert a; decide

/-- At reset the fields of CTRL are those of the word 0 (R34, R64). -/
theorem ctrlWord_reset : ctrlWord 0 .encrypt .ecb = 0 := by decide

theorem pack_zero : pack AesWord.zero = 0 := by decide

/-- At reset STATUS shows NK = 4 and NR = 10, and every other bit is 0 (R41, R65). -/
theorem statusWord_of_atReset {s : State} (h : AtReset s) : statusWord s = 0x004A0000 := by
  have reset : statusWord State.reset = 0x004A0000 := by decide
  rw [h, ← reset]
  rfl

theorem chainValue_of_atReset {s : State} (h : AtReset s) (j : Fin 4) : chainValue s j = 0 := by
  rw [h, ← pack_zero]
  fin_cases j <;> rfl

/-- At reset every read but that of STATUS answers 0. -/
theorem exec_read_of_atReset {s : State} (h : AtReset s) {i : Instr} (isRead : i.row < 12) :
    exec i s = .next (respond (if i = .rdStatus then 0x004A0000 else 0) s) := by
  cases i
  case rdStatus => rw [exec, execRdStatus, statusWord_of_atReset h, if_pos rfl]
  case rdChain j => rw [exec, execRdChain, chainValue_of_atReset h, if_neg nofun]
  case rdCtrl =>
    rw [exec, execRdCtrl, if_neg nofun, ← ctrlWord_reset, h]
    rfl
  case rdCmd | rdRsvd5 | rdRsvd67 => rfl
  case rdRkidx | rdRkdata =>
    rw [h]
    rfl
  case rdKey j =>
    rw [h]
    simp [exec, execRdKey, State.reset]
  case rdIv j | rdDin j | rdDout j =>
    rw [h]
    simp [exec, execRdIv, execRdDin, execRdDout, State.reset]
  all_goals simp [Instr.row] at isRead

/-- Settles O13: the three states hold the reset values, and every address decodes to a read. -/
theorem readsAfterReset : Obligations.ReadsAfterReset := by
  intro a s u hu
  have atReset : AtReset u := by
    rcases hu with rfl | rfl | h
    · rfl
    · rfl
    · obtain rfl : clearAll s = u := by simpa [exec, execCmdClear] using h
      rfl
  rw [decode_transactionWord, if_neg nofun, exec_read_of_atReset atReset (row_decodeRead_lt a)]
  simp only [decodeRead_eq_rdStatus_iff]
  rfl

/-! ### BUSY (R46, R410) -/

namespace Timing

/-- n cycles take n off what is left of BUSY. -/
theorem run_cycles (p : Params) (m : Impl) (k n : Nat) :
    run p (holdBusy k m) (List.replicate n .cycle) = holdBusy (k - n) m := by
  induction n generalizing k with
  | zero => rfl
  | succ n ih =>
    change run p (holdBusy (k - 1) m) (List.replicate n .cycle) = _
    rw [ih, show k - 1 - n = k - (n + 1) by omega]

/-- Settles O54: a command is issued with its latency left, and each cycle takes one off. -/
theorem busyLastsForTheLatency : Obligations.BusyLastsForTheLatency := by
  intro p m t n notBusy outOfReset lat
  have hlat : lat = latencyOf p.lat m.core (decode t) := by
    unfold lat
    cases decode t <;> rfl
  have issued : issue p t m = holdBusy lat { m with core := perform t m.core } := by
    simp [issue, notBusy, outOfReset, hlat]
  change (run p (issue p t m) (List.replicate n .cycle)).core.busy = _
  rw [issued, run_cycles]
  change decide (lat - n ≠ 0) = decide (n < lat)
  congr 1
  simp only [eq_iff_iff]
  omega

end Timing

end Sys2Proof.Machine

/-! PROOFS. The statements about the port (20_memory). A step performs the decoded transaction; a read only answers; and
an implementation with latencies simulates the one without, event by event, in all but BUSY and the read data. -/

namespace Sys2Proof.Machine

/-! ### Reads (R78) -/

theorem decode_of_read {t : Transaction} (read : weOf t = false) : decode t = decodeRead (addrOf t) := by
  simp [decode, read]

/-- The instructions of the first 12 rows answer a value and do nothing else (R320). -/
theorem exec_read {i : Instr} (isRead : i.row < 12) (s : State) : ∃ v, exec i s = .next (respond v s) := by
  cases i
  case rdCtrl | rdCmd | rdStatus | rdRkidx | rdRkdata | rdRsvd5 | rdRsvd67 | rdKey | rdIv | rdDin | rdDout | rdChain =>
    exact ⟨_, rfl⟩
  all_goals simp [Instr.row] at isRead

/-- Settles O12: a word with WE = 0 decodes to one of the first 12 rows. -/
theorem readsHaveNoSideEffect : Obligations.ReadsHaveNoSideEffect := by
  intro t s read
  rw [decode_of_read read]
  exact exec_read (row_decodeRead_lt _) s

/-! ### The step (R72, R73) -/

/-- With BUSY = 0 the oldest transaction is performed, whatever it is (R72). -/
theorem step_of_transaction_of_not_busy {s : State} {t : Transaction} {rest : List HostEvent} (notBusy : s.busy = false)
    (h : s.inputs = .transaction t :: rest) : step s = exec (decode t) { s with inputs := rest, rdata := none } := by
  rw [step_of_transaction h, if_neg (by simp [notBusy])]

/-- A table word that decodes is offered to a ready port. -/
theorem withFetchWord_of_decodeTableWord {nbits w : Nat} {i : Instr} (h : decodeTableWord nbits w = some i) (s : State) :
    ∃ t, decode t = i ∧ s.withFetchWord nbits w = offer t s := by
  obtain ⟨t, ht, hi⟩ := Option.map_eq_some_iff.1 h
  exact ⟨t, hi, by rw [State.withFetchWord, ht]⟩

/-- Settles O5: a table word stands first among the inputs, so its step is that of any oldest transaction. -/
theorem stepRunsTheDecodedTransaction : Obligations.StepRunsTheDecodedTransaction := by
  refine ⟨fun s t rest notBusy h => step_of_transaction_of_not_busy notBusy h, fun s w i h => ?_⟩
  obtain ⟨t, rfl, offered⟩ := withFetchWord_of_decodeTableWord h s
  rw [offered]
  exact step_of_transaction_of_not_busy rfl rfl

/-! ### Latencies (R72, R410, R415) -/

namespace Timing

/-- What a host that polls may do: while BUSY = 1 it issues STATUS reads only (R410). -/
def Allowed (m : Impl) (e : PinEvent) : Prop :=
  ∀ t, e = .transaction t → m.core.busy = true → decode t = .rdStatus

theorem allowed_of_not_busy {m : Impl} (h : m.core.busy = false) (e : PinEvent) : Allowed m e := by
  intro t _ busy
  simp [h] at busy

theorem polite_cons_iff {p : Params} {m : Impl} {e : PinEvent} {es : List PinEvent} :
    Polite p m (e :: es) ↔ Allowed m e ∧ Polite p (pinStep p m e) es := by
  cases e <;> simp [Polite, Allowed]

theorem polite_append_iff {p : Params} {m : Impl} {es fs : List PinEvent} :
    Polite p m (es ++ fs) ↔ Polite p m es ∧ Polite p (run p m es) fs := by
  induction es generalizing m with
  | nil => simp [Polite, run]
  | cons e es ih => simp [polite_cons_iff, ih, run, and_assoc]

/-- A transaction performed while BUSY = 0 depends on the untimed state only: the read data is dropped first (R71). -/
theorem perform_eq_after_untimed {s : State} (notBusy : s.busy = false) (t : Transaction) :
    perform t s = after (decode t) (untimed s) := by
  rw [perform_of_not_busy notBusy, untimed, ← notBusy]

/-- A poll shows in the read data alone, whatever BUSY is (R302, R411). -/
theorem untimed_perform_of_rdStatus {t : Transaction} (poll : decode t = .rdStatus) (s : State) :
    untimed (perform t s) = untimed s := by
  simp [perform, transact, poll, exec, execRdStatus, respond, untimed]

/-- Out of reset, an allowed transaction does to the untimed state what its instruction does. -/
theorem untimed_issue {m : Impl} {t : Transaction} (p : Params) (outOfReset : m.inReset = false)
    (allowed : Allowed m (.transaction t)) :
    untimed (issue p t m).core = untimed (after (decode t) (untimed m.core)) := by
  by_cases busy : m.core.busy = true
  · have poll := allowed t rfl busy
    have afterPoll : untimed (after (decode t) (untimed m.core)) = untimed m.core := by rw [poll]; rfl
    rw [afterPoll, ← untimed_perform_of_rdStatus poll m.core]
    simp [issue, outOfReset, busy]
  · rw [← perform_eq_after_untimed (by simpa using busy)]
    simp [issue, outOfReset, busy, holdBusy, untimed]

theorem issue_inReset (p : Params) (t : Transaction) (m : Impl) : (issue p t m).inReset = m.inReset := by
  unfold issue
  split
  · rfl
  · split <;> rfl

/-- No command holds BUSY where every latency is 0. -/
theorem latencyOf_zeroLatency (p : Params) (s : State) (i : Instr) : latencyOf (zeroLatency p).lat s i = 0 := by
  cases i <;> rfl

/-- The implementation never shows BUSY = 1 between transactions. -/
structure Idle (z : Impl) : Prop where
  notBusy : z.core.busy = false
  noneLeft : z.left = 0

/-- An implementation without latencies stays so. -/
theorem Idle.pinStep {p : Params} {z : Impl} (h : Idle z) (e : PinEvent) : Idle (pinStep (zeroLatency p) z e) := by
  obtain ⟨notBusy, noneLeft⟩ := h
  cases e with
  | rst level =>
    simp only [Timing.pinStep]
    split
    · exact ⟨rfl, rfl⟩
    · exact ⟨notBusy, noneLeft⟩
  | cycle => simpa [Timing.pinStep, noneLeft] using ⟨rfl, rfl⟩
  | transaction t =>
    by_cases inReset : z.inReset = true
    · simpa [Timing.pinStep, issue, inReset] using ⟨notBusy, noneLeft⟩
    · simpa [Timing.pinStep, issue, inReset, notBusy, latencyOf_zeroLatency] using ⟨rfl, rfl⟩

/-- Two implementations agree in all but time: BUSY, the read data and the cycles left. -/
structure AgreeUntimed (m z : Impl) : Prop where
  core : untimed m.core = untimed z.core
  inReset : m.inReset = z.inReset

/-- The reset input does not look at what depends on time (R400). -/
theorem resetInput_untimed (s : State) : resetInput (untimed s) = resetInput s := rfl

/-- An allowed event keeps two implementations in agreement, whatever their latencies and with one reset style. -/
theorem AgreeUntimed.pinStep {p q : Params} {m z : Impl} (agree : AgreeUntimed m z) (style : p.style = q.style)
    {e : PinEvent} (hm : Allowed m e) (hz : Allowed z e) : AgreeUntimed (pinStep p m e) (pinStep q z e) := by
  obtain ⟨core, inReset⟩ := agree
  cases e with
  | rst level =>
    simp only [Timing.pinStep, style]
    split
    · exact ⟨by rw [← resetInput_untimed, core, resetInput_untimed], rfl⟩
    · exact ⟨core, rfl⟩
  | cycle => exact ⟨core, inReset⟩
  | transaction t =>
    refine ⟨?_, by simpa [Timing.pinStep, issue_inReset] using inReset⟩
    by_cases hr : m.inReset = true
    · simpa [Timing.pinStep, issue, hr, ← inReset] using core
    · have outOfReset : m.inReset = false := by simpa using hr
      calc untimed (issue p t m).core
          = untimed (after (decode t) (untimed m.core)) := untimed_issue p outOfReset hm
        _ = untimed (after (decode t) (untimed z.core)) := by rw [core]
        _ = untimed (issue q t z).core := (untimed_issue q (inReset ▸ outOfReset) hz).symm

/-- The simulation: along a polite trace the implementation without latencies stays idle and in agreement. -/
theorem run_agreeUntimed {p : Params} {m z : Impl} {es : List PinEvent} (polite : Polite p m es)
    (agree : AgreeUntimed m z) (idle : Idle z) :
    AgreeUntimed (run p m es) (run (zeroLatency p) z es) ∧ Idle (run (zeroLatency p) z es) := by
  induction es generalizing m z with
  | nil => exact ⟨agree, idle⟩
  | cons e es ih =>
    obtain ⟨allowed, polite'⟩ := polite_cons_iff.1 polite
    have agree' := agree.pinStep (p := p) (q := zeroLatency p) rfl allowed (allowed_of_not_busy idle.notBusy e)
    exact ih polite' agree' (idle.pinStep e)

/-- Out of reset and while BUSY = 0, a transaction's read data is that of its instruction in the untimed state. -/
theorem issue_rdata {m : Impl} (p : Params) (t : Transaction) (outOfReset : m.inReset = false)
    (notBusy : m.core.busy = false) : (issue p t m).core.rdata = (after (decode t) (untimed m.core)).rdata := by
  rw [← perform_eq_after_untimed notBusy]
  simp [issue, outOfReset, notBusy, holdBusy]

/-- Settles O53, by the simulation: a transaction other than a STATUS read is issued with BUSY = 0 on both sides, so its
read data is that of one instruction in one untimed state. -/
theorem latencyIsNotObservable : Obligations.LatencyIsNotObservable := by
  intro p m es polite z
  obtain ⟨⟨core, inReset⟩, idle⟩ := run_agreeUntimed (z := z) polite ⟨rfl, rfl⟩ ⟨rfl, rfl⟩
  refine ⟨core, fun t polite' notPoll outOfReset => ?_⟩
  obtain ⟨allowed, -⟩ := polite_cons_iff.1 (polite_append_iff.1 polite').2
  have notBusy : (run p m es).core.busy = false := by
    by_contra busy
    exact notPoll (allowed t rfl (by simpa using busy))
  rw [run_append, run_append]
  calc (issue p t (run p m es)).core.rdata
      = (after (decode t) (untimed (run p m es).core)).rdata := issue_rdata p t outOfReset notBusy
    _ = (after (decode t) (untimed (run (zeroLatency p) z es).core)).rdata := by rw [core]
    _ = (issue (zeroLatency p) t (run (zeroLatency p) z es)).core.rdata :=
      (issue_rdata _ t (inReset ▸ outOfReset) idle.notBusy).symm

end Timing

end Sys2Proof.Machine

/-! PROOFS. The statements about the encoding (30_encoding). The decoder sees a word through its fields, so a fact about
all words is a fact about WE, ADDR and, in a write to CMD, OP. -/

namespace Sys2Proof

/-! ### Decoding an encoding (R100 to R109) -/

theorem decodeCtrl_ctrlWord (ksz : BitVec 2) (dir : Direction) (mode : ChainMode) :
    decodeCtrl (ctrlWord ksz dir mode) = .wrCtrl ksz dir mode := by
  cases dir <;> cases mode <;> revert ksz <;> decide

theorem decode_encodeCommand (op : BitVec 4) (len : Nat) :
    decode (encodeCommand op len) = decodeCommand (commandWord op len) := by
  rw [encodeCommand, decode_transactionWord, if_pos rfl]
  rfl

/-- Every field that an instruction's word carries is read back (R104 to R109). -/
theorem decode_encode {i : Instr} (wf : i.wellFormed = true) : decode (encode i) = i := by
  cases i
  case rdRsvd67 j | rdKey j | rdIv j | rdDin j | rdDout j | rdChain j | wrRsvd67 j | wrDout j | wrChain j =>
    revert j
    decide
  case wrKey j v | wrIv j v | wrDin j v =>
    rw [encode, decode_transactionWord, if_pos rfl]
    fin_cases j <;> rfl
  case wrCtrl ksz dir mode =>
    rw [encode, decode_transactionWord, if_pos rfl]
    exact decodeCtrl_ctrlWord ksz dir mode
  case wrRkidx index =>
    revert index
    decide
  case cmdKeyexp len | cmdLoadiv len =>
    have fits : len % 16 = len := Nat.mod_eq_of_lt (by simpa [Instr.wellFormed] using wf)
    rw [encode, decode_encodeCommand, decodeCommand, opOf_commandWord, lenOf_commandWord, fits]
    rfl
  all_goals rfl

/-- Settles O1, by the cases of the instruction. -/
theorem decodeOfEncode : Obligations.DecodeOfEncode := fun _ wf => decode_encode wf

/-! ### What decoding depends on (R101, R103, R106) -/

theorem lenOf_lt (v : Word) : lenOf v < 16 := (v.extractLsb' 8 4).isLt

theorem wellFormed_decodeRead (a : BitVec 5) : (decodeRead a).wellFormed = true := by
  revert a
  decide

/-- LEN is a 4-bit count (R106). -/
theorem wellFormed_decodeCommand (v : Word) : (decodeCommand v).wellFormed = true := by
  unfold decodeCommand
  split <;> simp [Instr.wellFormed, lenOf_lt]

theorem wellFormed_decodeWrite (a : BitVec 5) (v : Word) : (decodeWrite a v).wellFormed = true := by
  unfold decodeWrite
  repeat' split
  case h_2 => exact wellFormed_decodeCommand v
  all_goals rfl

theorem wellFormed_decode (t : Transaction) : (decode t).wellFormed = true := by
  unfold decode
  split
  · exact wellFormed_decodeWrite _ _
  · exact wellFormed_decodeRead _

/-- The commands are the rows from 13 on, in the order of their opcodes (R104, R111). -/
theorem row_decodeCommand (v : Word) : (decodeCommand v).row = 13 + (opOf v).toNat := by
  unfold decodeCommand
  obtain ⟨⟨op, hop⟩⟩ := opOf v
  interval_cases op <;> rfl

/-- The value written chooses the row of a write to CMD only, and there by its OP alone (R103). -/
theorem row_decodeWrite_congr {a : BitVec 5} {v u : Word} (sameOp : a = 1 → opOf v = opOf u) :
    (decodeWrite a v).row = (decodeWrite a u).row := by
  by_cases command : a = 1
  · rw [command]
    change (decodeCommand v).row = (decodeCommand u).row
    rw [row_decodeCommand, row_decodeCommand, sameOp command]
  · obtain ⟨⟨n, hn⟩⟩ := a
    have other : n ≠ 1 := by
      rintro rfl
      exact command rfl
    rcases Nat.lt_or_gt_of_ne other with before | after
    · interval_cases n
      rfl
    · interval_cases n <;> rfl

/-- WE, ADDR and, in a write to CMD, OP choose the row of a word (R103). -/
theorem row_decode_congr {t u : Transaction} (sameWe : weOf t = weOf u) (sameAddr : addrOf t = addrOf u)
    (sameOp : weOf t = true → addrOf t = 1 → opOf (dataOf t) = opOf (dataOf u)) :
    (decode t).row = (decode u).row := by
  unfold decode
  rw [← sameWe, ← sameAddr]
  split
  case isTrue write => exact row_decodeWrite_congr (sameOp write)
  case isFalse => rfl

/-- Settles O3: a read's instruction depends on ADDR alone. -/
theorem decodeUsesOnlyTheNamedFields : Obligations.DecodeUsesOnlyTheNamedFields := by
  refine ⟨wellFormed_decode, fun _ _ => row_decode_congr, fun t u readT readU sameAddr => ?_⟩
  rw [Machine.decode_of_read readT, Machine.decode_of_read readU, sameAddr]

/-! ### The rows partition the words (R111, R118) -/

/-- The word with the same WE and ADDR whose DATA is the command word of OP. -/
def opWord (t : Transaction) : Transaction :=
  transactionWord (weOf t) (addrOf t) (commandWord (opOf (dataOf t)) 0)

theorem selectedRows_opWord (t : Transaction) : selectedRows (opWord t) = selectedRows t := by
  conv_rhs => rw [← transactionWord_fields t]
  rw [opWord, selectedRows_transactionWord, selectedRows_transactionWord, ← opOf, ← opOf, opOf_commandWord]

theorem row_decode_opWord (t : Transaction) : (decode (opWord t)).row = (decode t).row :=
  row_decode_congr (by simp [opWord]) (by simp [opWord]) (by simp [opWord])

/-- The finite table: WE, ADDR and OP select one row of the 39, that of the decoder. -/
theorem selectedRows_transactionWord_commandWord (we : Bool) (a : BitVec 5) (op : BitVec 4) :
    selectedRows (transactionWord we a (commandWord op 0)) =
      [(decode (transactionWord we a (commandWord op 0))).row] := by
  revert we a op
  decide +kernel

/-- Settles O2: the rows that a word selects and the row of its instruction depend on WE, ADDR and OP alone. -/
theorem rowsPartitionTheTransactions : Obligations.RowsPartitionTheTransactions := by
  refine ⟨rfl, fun t => ?_⟩
  calc selectedRows t
      = selectedRows (opWord t) := (selectedRows_opWord t).symm
    _ = [(decode (opWord t)).row] := selectedRows_transactionWord_commandWord _ _ _
    _ = [(decode t).row] := by rw [row_decode_opWord]

/-- Settles O4, by running the decoder on the thirteen words. -/
theorem specWordsDecode : Obligations.SpecWordsDecode := by
  unfold Obligations.SpecWordsDecode
  decide

end Sys2Proof

/-! PROOFS. The pseudo-instructions of the assembler (30_encoding R117) expand to encodings of instructions and decode
to those instructions; their operands are spelled digit by digit. -/

namespace Sys2Proof.Machine.Assembler

/-! ### Digit groups (R77, R117) -/

/-- The word of up to 8 digits, the first the most significant. -/
def digitsWord (l : Digits) : Word := l.foldl (fun acc x => (acc <<< 4) ||| x.setWidth 32) 0

theorem digitGroup_eq (d : Digits) (j : Nat) : digitGroup d j = digitsWord ((d.drop (8 * j)).take 8) := rfl

theorem digitsWord_concat (l : Digits) (x : BitVec 4) :
    digitsWord (l ++ [x]) = (digitsWord l <<< 4) ||| x.setWidth 32 := by
  simp [digitsWord]

/-- The last digit is in bits 3:0. -/
theorem extractLsb'_zero_shiftLeft_or (w : Word) (x : BitVec 4) :
    ((w <<< 4) ||| x.setWidth 32).extractLsb' 0 4 = x := by
  ext i hi
  have inWord : i < 32 := by omega
  simp [hi, inWord]

/-- A digit more at the end moves the others up by one place. -/
theorem extractLsb'_succ_shiftLeft_or (w : Word) (x : BitVec 4) {p : Nat} (hp : p < 7) :
    ((w <<< 4) ||| x.setWidth 32).extractLsb' (4 * (p + 1)) 4 = w.extractLsb' (4 * p) 4 := by
  ext i hi
  have place : 4 * (p + 1) + i = (4 * p + i) + 4 := by omega
  have inWord : 4 * p + i + 4 < 32 := by omega
  simp [place, inWord, BitVec.getLsbD_eq_getElem (x := w) (show 4 * p + i < 32 by omega)]

/-- Digit k stands as many places from the end of the word as from the end of the list. -/
theorem extractLsb'_digitsWord (l : Digits) (fits : l.length ≤ 8) (k : Nat) (hk : k < l.length) :
    (digitsWord l).extractLsb' (4 * (l.length - 1 - k)) 4 = l[k] := by
  induction l using List.reverseRecOn with
  | nil => simp at hk
  | append_singleton l x ih =>
    rw [List.length_append, List.length_singleton] at fits hk
    rw [digitsWord_concat]
    rcases Nat.lt_succ_iff_lt_or_eq.1 hk with before | rfl
    · rw [show (l ++ [x]).length - 1 - k = (l.length - 1 - k) + 1 by simp; omega,
        extractLsb'_succ_shiftLeft_or _ _ (by omega), ih (by omega) before, List.getElem_append_left before]
    · simpa using extractLsb'_zero_shiftLeft_or _ x

/-- Digit k of group j, the first the most significant (R77). -/
theorem extractLsb'_digitGroup (d : Digits) (j k : Nat) (hk : k < 8) (h : 8 * j + 8 ≤ d.length) :
    (digitGroup d j).extractLsb' (4 * (7 - k)) 4 = d[8 * j + k] := by
  have length : ((d.drop (8 * j)).take 8).length = 8 := by simp; omega
  have digit := extractLsb'_digitsWord ((d.drop (8 * j)).take 8) length.le k (by omega)
  simp only [length] at digit
  rw [digitGroup_eq, digit]
  simp

/-! ### Expansions are encodings (R116, R117) -/

theorem cfgValue_eq_ctrlWord (ksz : Fin 3) (dir : Direction) (mode : ChainMode) :
    cfgValue ksz dir mode = ctrlWord (BitVec.ofNat 2 ksz.val) dir mode := by
  cases dir <;> cases mode <;> revert ksz <;> decide

/-- The writes of KEY0 to KEY(Nk − 1) and KEYEXP with LEN = Nk, Nk the number of groups (R117). -/
def keyLoad (d : Digits) : List Instr :=
  (((List.finRange 8).filter fun j => j.val < d.length / 8).map fun j => .wrKey j (digitGroup d j.val)) ++
    [.cmdKeyexp (d.length / 8)]

/-- The writes of IV0 to IV3 and LOADIV with LEN = 4 (R117). -/
def ivLoad (d : Digits) : List Instr :=
  (List.finRange 4).map (fun j => .wrIv j (digitGroup d j.val)) ++ [.cmdLoadiv 4]

/-- The writes of DIN0 to DIN3, BLOCK, and the reads of DOUT0 to DOUT3 (R117). -/
def blockExchange (d : Digits) : List Instr :=
  (List.finRange 4).map (fun j => .wrDin j (digitGroup d j.val)) ++ [.cmdBlock] ++ (List.finRange 4).map .rdDout

theorem expand_ldkey {d : Digits} (h : d.length = 32 ∨ d.length = 48 ∨ d.length = 64) :
    expand (.ldkey d) = some ((keyLoad d).map encode) := by
  rw [expand, if_pos h, keyLoad]
  rcases h with h | h | h
  all_goals
    rw [h]
    rfl

theorem expand_ldiv {d : Digits} (h : d.length = 32) : expand (.ldiv d) = some ((ivLoad d).map encode) := by
  rw [expand, if_pos h]
  rfl

theorem expand_xblk {d : Digits} (h : d.length = 32) : expand (.xblk d) = some ((blockExchange d).map encode) := by
  rw [expand, if_pos h]
  rfl

theorem wellFormed_of_mem_keyLoad {d : Digits} (h : d.length / 8 < 16) : ∀ i ∈ keyLoad d, i.wellFormed = true := by
  simp [keyLoad, or_imp, forall_and, Instr.wellFormed, h]

theorem wellFormed_of_mem_ivLoad (d : Digits) : ∀ i ∈ ivLoad d, i.wellFormed = true := by
  simp [ivLoad, or_imp, forall_and, Instr.wellFormed]

theorem wellFormed_of_mem_blockExchange (d : Digits) : ∀ i ∈ blockExchange d, i.wellFormed = true := by
  simp [blockExchange, or_imp, forall_and, Instr.wellFormed]

/-- An expansion into encodings of instructions decodes to those instructions. -/
theorem map_decode_expand {st : Stmt} {is : List Instr} (h : expand st = some (is.map encode))
    (wf : ∀ i ∈ is, i.wellFormed = true) : (expand st).map (List.map decode) = some is := by
  have kept : is.map (decode ∘ encode) = is.map id := List.map_congr_left fun i hi => decode_encode (wf i hi)
  rw [h, Option.map_some, List.map_map, kept, List.map_id]

/-- Settles O59: the hexadecimal operands expand to encodings, and their digits are read off the groups. -/
theorem pseudoInstructionsExpand : Obligations.PseudoInstructionsExpand := by
  refine ⟨fun ksz dir mode => ?_, fun d h => ?_, fun d h32 h48 h64 => ?_, fun d h => ?_, fun d h => ?_, fun i => ?_,
    ?_, fun d j k hk h _ => extractLsb'_digitGroup d j k hk h⟩
  · rw [expand, cfgValue_eq_ctrlWord]
    rfl
  · exact map_decode_expand (expand_ldkey h) (wellFormed_of_mem_keyLoad (by omega))
  · simp [expand, h32, h48, h64]
  · exact map_decode_expand (expand_ldiv h) (wellFormed_of_mem_ivLoad d)
  · exact map_decode_expand (expand_xblk h) (wellFormed_of_mem_blockExchange d)
  · simp [expand, asmWrite, asmRead, decodeWrite, decodeRead]
  · rfl

end Sys2Proof.Machine.Assembler

/-! PROOFS. The statements about the field tables (40_field_tables) and the inverse transforms built on them. A byte is an
exclusive-or of powers of x, so the laws of the product follow from three facts about its loop: it is additive in each
factor, and it carries xtime of the first factor outside. -/

namespace Sys2Proof

/-! ### xtime and the loop of the product (R141, R142) -/

theorem xtime_zero : xtime 0 = 0 := rfl

/-- Adding a byte when u or else v is 1 is adding it for each of the two. -/
theorem ite_xor_eq_xor_ite (u v : Bool) (a : Byte) :
    (if u ^^ v then a else 0) = (if u then a else 0) ^^^ (if v then a else 0) := by
  cases u <;> cases v <;> simp

theorem ite_byte_xor (u : Bool) (a c : Byte) :
    (if u then a ^^^ c else 0) = (if u then a else 0) ^^^ (if u then c else 0) := by
  cases u <;> simp

/-- Shifting is additive, and so is the reduction by bit 7. -/
theorem xtime_xor (a b : Byte) : xtime (a ^^^ b) = xtime a ^^^ xtime b := by
  have shift : (a ^^^ b) <<< 1 = a <<< 1 ^^^ b <<< 1 := BitVec.shiftLeft_xor_distrib a b 1
  unfold xtime
  rw [shift, BitVec.getLsbD_xor, ite_xor_eq_xor_ite]
  ac_rfl

/-- A turn of the loop adds the first factor when the bit of the second is 1. -/
theorem gmulFrom_succ (b : Byte) (n k : Nat) (a p : Byte) :
    gmulFrom b (n + 1) k a p = gmulFrom b n (k + 1) (xtime a) (p ^^^ if b.getLsbD k then a else 0) := by
  rw [gmulFrom]
  cases b.getLsbD k <;> simp

/-- The loop is additive in the second factor. -/
theorem gmulFrom_xor_right (b c : Byte) (n k : Nat) (a p q : Byte) :
    gmulFrom (b ^^^ c) n k a (p ^^^ q) = gmulFrom b n k a p ^^^ gmulFrom c n k a q := by
  induction n generalizing k a p q with
  | zero => rfl
  | succ n ih =>
    rw [gmulFrom_succ, gmulFrom_succ, gmulFrom_succ, ← ih, BitVec.getLsbD_xor, ite_xor_eq_xor_ite]
    congr 1
    ac_rfl

/-- The loop is additive in the first factor. -/
theorem gmulFrom_xor_left (b : Byte) (n k : Nat) (a c p q : Byte) :
    gmulFrom b n k (a ^^^ c) (p ^^^ q) = gmulFrom b n k a p ^^^ gmulFrom b n k c q := by
  induction n generalizing k a c p q with
  | zero => rfl
  | succ n ih =>
    rw [gmulFrom_succ, gmulFrom_succ, gmulFrom_succ, ← ih, xtime_xor, ite_byte_xor]
    congr 1
    ac_rfl

/-- The loop commutes with xtime of the first factor. -/
theorem gmulFrom_xtime (b : Byte) (n k : Nat) (a p : Byte) :
    gmulFrom b n k (xtime a) (xtime p) = xtime (gmulFrom b n k a p) := by
  induction n generalizing k a p with
  | zero => rfl
  | succ n ih =>
    rw [gmulFrom_succ, gmulFrom_succ, ← ih, xtime_xor, apply_ite xtime]
    rfl

/-- What exclusive-or and xtime keep, the loop keeps. -/
theorem gmulFrom_induction {P : Byte → Prop} (xor : ∀ a b, P a → P b → P (a ^^^ b)) (x : ∀ a, P a → P (xtime a))
    (b : Byte) (n k : Nat) {a p : Byte} (ha : P a) (hp : P p) : P (gmulFrom b n k a p) := by
  induction n generalizing k a p with
  | zero => exact hp
  | succ n ih =>
    refine ih (k + 1) (x a ha) ?_
    cases b.getLsbD k
    case false => exact hp
    case true => exact xor p a hp ha

/-! ### The product (R142) -/

theorem gmul_xor (a b c : Byte) : gmul a (b ^^^ c) = gmul a b ^^^ gmul a c :=
  gmulFrom_xor_right b c 8 0 a 0 0

theorem xor_gmul (a b c : Byte) : gmul (a ^^^ b) c = gmul a c ^^^ gmul b c :=
  gmulFrom_xor_left c 8 0 a b 0 0

theorem xtime_gmul (a b : Byte) : gmul (xtime a) b = xtime (gmul a b) :=
  gmulFrom_xtime b 8 0 a 0

theorem gmul_zero (a : Byte) : gmul a 0 = 0 := rfl

theorem gmul_one (a : Byte) : gmul a 1 = a :=
  BitVec.zero_xor

theorem zero_gmul (b : Byte) : gmul 0 b = 0 :=
  gmulFrom_induction (P := (· = 0)) (by rintro _ _ rfl rfl; rfl) (by rintro _ rfl; rfl) b 8 0 rfl rfl

/-- Every byte is the exclusive-or of the powers of x that its bits name. -/
theorem one_gmul (b : Byte) : gmul 1 b = b := by
  revert b
  decide +kernel

/-- Induction over the powers of x that a byte is made of. -/
theorem byte_induction {P : Byte → Prop} (zero : P 0) (one : P 1) (x : ∀ a, P a → P (xtime a))
    (xor : ∀ a b, P a → P b → P (a ^^^ b)) (b : Byte) : P b := by
  rw [← one_gmul b]
  exact gmulFrom_induction xor x b 8 0 one zero

theorem gmul_xtime (a b : Byte) : gmul a (xtime b) = xtime (gmul a b) := by
  induction a using byte_induction with
  | zero => simp only [zero_gmul, xtime_zero]
  | one => rw [one_gmul, one_gmul]
  | x a ih => rw [xtime_gmul, ih, xtime_gmul]
  | xor a c iha ihc => rw [xor_gmul, iha, ihc, xor_gmul, xtime_xor]

theorem gmul_comm (a b : Byte) : gmul a b = gmul b a := by
  induction a using byte_induction with
  | zero => rw [zero_gmul, gmul_zero]
  | one => rw [one_gmul, gmul_one]
  | x a ih => rw [xtime_gmul, ih, gmul_xtime]
  | xor a c iha ihc => rw [xor_gmul, iha, ihc, gmul_xor]

theorem gmul_assoc (a b c : Byte) : gmul (gmul a b) c = gmul a (gmul b c) := by
  induction a using byte_induction with
  | zero => rw [zero_gmul, zero_gmul, zero_gmul]
  | one => rw [one_gmul, one_gmul]
  | x a ih => rw [xtime_gmul, xtime_gmul, ih, xtime_gmul]
  | xor a d iha ihd => rw [xor_gmul, xor_gmul, iha, ihd, xor_gmul]

/-! ### Inverses (R149) -/

/-- The construction of R149 at each of the 256 bytes: the 254th power is the inverse, and the affine map of it is the
grid's entry. The two are one check, so that the power is computed once. -/
theorem gfInverse_and_sbox (b : Byte) : (b ≠ 0 → gmul b (gfInverse b) = 1) ∧ sbox b = sboxAffine (gfInverse b) := by
  revert b
  decide +kernel

theorem gmul_gfInverse {b : Byte} (nonzero : b ≠ 0) : gmul b (gfInverse b) = 1 :=
  (gfInverse_and_sbox b).left nonzero

theorem sbox_eq_sboxAffine (b : Byte) : sbox b = sboxAffine (gfInverse b) :=
  (gfInverse_and_sbox b).right

/-- Settles O42, by induction over the powers of x in the first factor. -/
theorem productIsThatOfAField : Obligations.ProductIsThatOfAField := fun a b c =>
  ⟨gmul_comm a b, gmul_assoc a b c, gmul_xor a b c, zero_gmul b, one_gmul b, fun h => ⟨gfInverse b, gmul_gfInverse h⟩⟩

/-! ### The multiplication tables and the round constants (R144, R146) -/

/-- A product by 2 is one step of the loop's doubling. -/
theorem two_gmul (b : Byte) : gmul 2 b = xtime b :=
  calc gmul (xtime 1) b = xtime (gmul 1 b) := xtime_gmul 1 b
    _ = xtime b := by rw [one_gmul]

theorem three_gmul (b : Byte) : gmul 3 b = xtime b ^^^ b :=
  calc gmul (2 ^^^ 1) b = gmul 2 b ^^^ gmul 1 b := xor_gmul 2 1 b
    _ = xtime b ^^^ b := by rw [two_gmul, one_gmul]

/-- The six constants that have a table (R144). -/
def tableConstants : List Byte := [2, 3, 9, 11, 13, 14]

/-- The 256 × 6 entries. -/
theorem mulTable_eq_gmul {c : Byte} (hasTable : c ∈ tableConstants) (b : Byte) : mulTable c b = gmul c b := by
  revert c b
  decide +kernel

theorem rcon_succ (j : Fin 9) : rcon (j.val + 2) = xtime (rcon (j.val + 1)) := by
  revert j
  decide

/-- Settles O43: MUL2 and MUL3 by the product, which is xtime and xtime with one more term. -/
theorem tablesHoldTheProducts : Obligations.TablesHoldTheProducts := by
  refine ⟨fun b c hasTable => mulTable_eq_gmul hasTable b, fun b => ⟨?_, ?_⟩, rfl, rcon_succ⟩
  · rw [mulTable_eq_gmul (by decide), two_gmul]
  · rw [mulTable_eq_gmul (by decide), three_gmul]

/-! ### The substitution boxes (R148 to R150) -/

/-- The affine map bit by bit, indices mod 8 (R149). -/
theorem getLsbD_sboxAffine (g : Byte) (k : Fin 8) :
    (sboxAffine g).getLsbD k.val =
      (g.getLsbD k.val ^^ g.getLsbD ((k.val + 4) % 8) ^^ g.getLsbD ((k.val + 5) % 8) ^^
        g.getLsbD ((k.val + 6) % 8) ^^ g.getLsbD ((k.val + 7) % 8) ^^ (0x63 : Byte).getLsbD k.val) := by
  fin_cases k <;> simp [sboxAffine]

theorem invSbox_sbox (b : Byte) : invSbox (sbox b) = b := by
  revert b
  decide +kernel

theorem sbox_invSbox (b : Byte) : sbox (invSbox b) = b := by
  revert b
  decide +kernel

/-- Settles O44, with the 254th power as the inverse. -/
theorem substitutionBoxes : Obligations.SubstitutionBoxes := by
  refine fun b => ⟨⟨gfInverse b, ?_, gmul_gfInverse, fun k => ?_⟩, invSbox_sbox b, sbox_invSbox b⟩
  · rintro rfl
    decide
  · rw [sbox_eq_sboxAffine, getLsbD_sboxAffine]

/-! ### The inverse transforms (R191, R192, R194) -/

@[simp] theorem at_invSubBytes (s : Block) (r c : Fin 4) : (invSubBytes s).at r c = invSbox (s.at r c) := by
  simp [invSubBytes]

@[simp] theorem at_invShiftRows (s : Block) (r c : Fin 4) : (invShiftRows s).at r c = s.at r (c - r) := by
  simp [invShiftRows]

@[simp] theorem col_invMixColumns (s : Block) (c : Fin 4) :
    (invMixColumns s).col c = matrixColumn invMixRow (s.col c) := by
  simp [invMixColumns]

/-- A byte of a matrix product is the XOR-sum of its row. -/
@[simp] theorem get_matrixColumn (rows : Fin 4 → AesWord) (a : AesWord) (r : Fin 4) :
    (matrixColumn rows a).get r = gdot (rows r) a := by
  simp [matrixColumn]

/-- A byte of InvMixColumns is a row of the inverse matrix times its column (R194). -/
theorem at_invMixColumns (s : Block) (r c : Fin 4) : (invMixColumns s).at r c = gdot (invMixRow r) (s.col c) := by
  simp [Block.at]

/-- The column is the same through the tables. -/
theorem invMixColumnTables_eq (a : AesWord) : invMixColumnTables a = matrixColumn invMixRow a := by
  have by9 := mulTable_eq_gmul (c := 9) (by decide)
  have by11 := mulTable_eq_gmul (c := 11) (by decide)
  have by13 := mulTable_eq_gmul (c := 13) (by decide)
  have by14 := mulTable_eq_gmul (c := 14) (by decide)
  simp only [invMixColumnTables, by9, by11, by13, by14]
  rfl

/-- Subtraction of columns is the non-negative remainder (R192). -/
theorem column_sub (c r : Fin 4) : c - r = ⟨(c.val + (4 - r.val)) % 4, Nat.mod_lt _ (by decide)⟩ := by
  rw [Nat.add_comm]
  rfl

/-- Settles O46, each transform by its law for one byte or column. -/
theorem inverseTransforms : Obligations.InverseTransforms := by
  refine fun s c => ⟨fun r => at_invSubBytes s r c, fun r => ?_, at_invMixColumns s 0 c, at_invMixColumns s 1 c,
    at_invMixColumns s 2 c, at_invMixColumns s 3 c, ?_⟩
  · rw [at_invShiftRows, column_sub]
  · rw [col_invMixColumns, invMixColumnTables_eq]

end Sys2Proof

/-! PROOFS. The statements about the forward transforms (41_forward_transforms). Each transform has its law for one byte or
column; MixColumns multiplies a column by M, in whose rows a product by 1 is the byte itself. -/

namespace Sys2Proof

/-! ### The forward transforms (R171 to R174) -/

@[simp] theorem at_subBytes (s : Block) (r c : Fin 4) : (subBytes s).at r c = sbox (s.at r c) := by
  simp [subBytes]

@[simp] theorem at_shiftRows (s : Block) (r c : Fin 4) : (shiftRows s).at r c = s.at r (c + r) := by
  simp [shiftRows]

@[simp] theorem at_roundKey (w : Vector AesWord 60) (k : Nat) (r c : Fin 4) :
    (roundKey w k).at r c = (scheduleWord w (4 * k + c.val)).get r := by
  simp [roundKey, Block.at]

@[simp] theorem at_addRoundKey (w : Vector AesWord 60) (k : Nat) (s : Block) (r c : Fin 4) :
    (addRoundKey w k s).at r c = s.at r c ^^^ (scheduleWord w (4 * k + c.val)).get r := by
  simp [addRoundKey]

@[simp] theorem col_mixColumns (s : Block) (c : Fin 4) : (mixColumns s).col c = matrixColumn mixRow (s.col c) := by
  simp [mixColumns]

/-- M times a column with the products by 1 written as the bytes themselves, as R173 writes it out. -/
theorem matrixColumn_mixRow (a : AesWord) :
    matrixColumn mixRow a =
      ⟨gmul 2 a.b0 ^^^ gmul 3 a.b1 ^^^ a.b2 ^^^ a.b3,
       a.b0 ^^^ gmul 2 a.b1 ^^^ gmul 3 a.b2 ^^^ a.b3,
       a.b0 ^^^ a.b1 ^^^ gmul 2 a.b2 ^^^ gmul 3 a.b3,
       gmul 3 a.b0 ^^^ a.b1 ^^^ a.b2 ^^^ gmul 2 a.b3⟩ := by
  simp only [matrixColumn, AesWord.ofFn, gdot, mixRow, one_gmul]

/-- The column is the same through the tables (R144). -/
theorem mixColumnTables_eq (a : AesWord) : mixColumnTables a = matrixColumn mixRow a := by
  have by2 := mulTable_eq_gmul (c := 2) (by decide)
  have by3 := mulTable_eq_gmul (c := 3) (by decide)
  simp only [mixColumnTables, by2, by3, matrixColumn_mixRow]

/-- Settles O45, each transform by its law for one byte or column. Addition of columns, in ShiftRows, is that of Fin 4, which
is mod 4 (R172). -/
theorem forwardTransforms : Obligations.ForwardTransforms := by
  intro s w c k
  have column := (col_mixColumns s c).trans (matrixColumn_mixRow (s.col c))
  refine ⟨fun r => at_subBytes s r c, fun r => at_shiftRows s r c, fun r => at_addRoundKey w k s r c,
    congrArg AesWord.b0 column, congrArg AesWord.b1 column, congrArg AesWord.b2 column, congrArg AesWord.b3 column, ?_⟩
  rw [col_mixColumns, mixColumnTables_eq]

end Sys2Proof

/-! PROOFS. The statements that join the forward and the inverse transforms (42_inverse_transforms). A transform of single
bytes is undone byte by byte; InvMixColumns undoes MixColumns because the product of the two matrices is the identity, by the
field laws of the product of bytes. -/

namespace Sys2Proof

/-! ### Products of matrices (R151, R152) -/

/-- Column j of a matrix given by its rows. -/
def matrixCol (rows : Fin 4 → AesWord) (j : Fin 4) : AesWord := AesWord.ofFn fun k => (rows k).get j

/-- The product of two matrices, by rows. -/
def matrixProduct (m n : Fin 4 → AesWord) (i : Fin 4) : AesWord := AesWord.ofFn fun j => gdot (m i) (matrixCol n j)

/-- The identity matrix, by rows. -/
def identityRow (i : Fin 4) : AesWord :=
  match i with
  | 0 => ⟨1, 0, 0, 0⟩
  | 1 => ⟨0, 1, 0, 0⟩
  | 2 => ⟨0, 0, 1, 0⟩
  | 3 => ⟨0, 0, 0, 1⟩

/-- A row times the column `n · a` is the row `r · n` times the column a, by the field laws (R142). -/
theorem gdot_matrixColumn (r : AesWord) (n : Fin 4 → AesWord) (a : AesWord) :
    gdot r (matrixColumn n a) = gdot (AesWord.ofFn fun j => gdot r (matrixCol n j)) a := by
  simp only [gdot, matrixColumn, matrixCol, AesWord.ofFn, AesWord.get, gmul_xor, xor_gmul, gmul_assoc]
  ac_rfl

/-- Two matrices in turn are their product. -/
theorem matrixColumn_matrixColumn (m n : Fin 4 → AesWord) (a : AesWord) :
    matrixColumn m (matrixColumn n a) = matrixColumn (matrixProduct m n) a :=
  AesWord.ext_get fun i => by rw [get_matrixColumn, get_matrixColumn, gdot_matrixColumn, matrixProduct]

theorem matrixColumn_identityRow (a : AesWord) : matrixColumn identityRow a = a := by
  simp only [matrixColumn, AesWord.ofFn, gdot, identityRow, one_gmul, zero_gmul]
  simp only [BitVec.ofNat_eq_ofNat, BitVec.xor_zero, BitVec.zero_xor]

theorem matrixProduct_invMixRow_mixRow : matrixProduct invMixRow mixRow = identityRow := by
  decide

theorem matrixProduct_mixRow_invMixRow : matrixProduct mixRow invMixRow = identityRow := by
  decide

/-! ### The inverse laws (R195) -/

theorem invSubBytes_subBytes (x : Block) : invSubBytes (subBytes x) = x :=
  Block.ext_at fun r c => by rw [at_invSubBytes, at_subBytes, invSbox_sbox]

theorem subBytes_invSubBytes (x : Block) : subBytes (invSubBytes x) = x :=
  Block.ext_at fun r c => by rw [at_subBytes, at_invSubBytes, sbox_invSbox]

theorem invShiftRows_shiftRows (x : Block) : invShiftRows (shiftRows x) = x :=
  Block.ext_at fun r c => by rw [at_invShiftRows, at_shiftRows, sub_add_cancel]

theorem shiftRows_invShiftRows (x : Block) : shiftRows (invShiftRows x) = x :=
  Block.ext_at fun r c => by rw [at_shiftRows, at_invShiftRows, add_sub_cancel_right]

theorem invMixColumns_mixColumns (x : Block) : invMixColumns (mixColumns x) = x :=
  Block.ext_col fun c => by
    rw [col_invMixColumns, col_mixColumns, matrixColumn_matrixColumn, matrixProduct_invMixRow_mixRow,
      matrixColumn_identityRow]

theorem mixColumns_invMixColumns (x : Block) : mixColumns (invMixColumns x) = x :=
  Block.ext_col fun c => by
    rw [col_mixColumns, col_invMixColumns, matrixColumn_matrixColumn, matrixProduct_mixRow_invMixRow,
      matrixColumn_identityRow]

theorem addRoundKey_addRoundKey (w : Vector AesWord 60) (k : Nat) (x : Block) :
    addRoundKey w k (addRoundKey w k x) = x :=
  Block.xor_xor_cancel x (roundKey w k)

/-- Settles O47, a law for each transform and order. -/
theorem inverseLaws : Obligations.InverseLaws := fun x w k =>
  ⟨invSubBytes_subBytes x, subBytes_invSubBytes x, invShiftRows_shiftRows x, shiftRows_invShiftRows x,
    invMixColumns_mixColumns x, mixColumns_invMixColumns x, addRoundKey_addRoundKey w k x⟩

end Sys2Proof

/-! PROOFS. The statements about the key expander (43_key_expansion). Each word of the schedule is given by one of the
three parts of Listing KX-1: copied, computed or not written. KEYEXP answers by its first check that fails, or expands
the key. -/

namespace Sys2Proof.Machine

/-! ### The words of the schedule (Listing KX-1) -/

/-- The three sizes of Listing KX-1 are those of the key sizes that CTRL.KSZ selects. -/
theorem exists_keySize {nk nw : Nat} (sizes : nk = 4 ∧ nw = 44 ∨ nk = 6 ∧ nw = 52 ∨ nk = 8 ∧ nw = 60) :
    ∃ k : BitVec 2, k ≠ 3 ∧ nkOf k = nk ∧ nwOf k = nw := by
  rcases sizes with ⟨rfl, rfl⟩ | ⟨rfl, rfl⟩ | ⟨rfl, rfl⟩
  · exact ⟨0, by decide, rfl, rfl⟩
  · exact ⟨1, by decide, rfl, rfl⟩
  · exact ⟨2, by decide, rfl, rfl⟩

/-- The first Nk words are the key's (R214): no later word overwrites them. -/
theorem scheduleWord_keyExpansion_of_lt {k : BitVec 2} (h : k ≠ 3) (key : Vector AesWord 8) (w : Vector AesWord 60)
    (i : Fin 8) (hi : i.val < nkOf k) :
    scheduleWord (keyExpansion (nkOf k) (nwOf k) key w) i.val = key[i] := by
  have sizes := nkOf_nwOf_cases h
  rw [keyExpansion, scheduleWord_expandFrom_of_not_mem _ _ _ _ (by omega) i.val (by omega),
    scheduleWord_copyKeyWords _ _ _ (by omega), if_pos hi]
  simp

/-- A word from Nk on is that of its step, over the finished schedule (R215). -/
theorem scheduleWord_keyExpansion_of_mem {k : BitVec 2} (h : k ≠ 3) (key : Vector AesWord 8) (w : Vector AesWord 60)
    {i : Nat} (hnk : nkOf k ≤ i) (hnw : i < nwOf k) :
    scheduleWord (keyExpansion (nkOf k) (nwOf k) key w) i =
      (scheduleWord (keyExpansion (nkOf k) (nwOf k) key w) (i - nkOf k)).xor
        (scheduleTemp (nkOf k) i (scheduleWord (keyExpansion (nkOf k) (nwOf k) key w) (i - 1))) := by
  have sizes := nkOf_nwOf_cases h
  exact scheduleWord_expandFrom_of_mem _ _ _ _ (by omega) (by omega) le_rfl i hnk (by omega)

/-- Settles O20, by the part of the listing that gives the word: copied, computed or not written. The cases that the
statement writes out for a computed word are those of `scheduleTemp`. -/
theorem keyExpansionFollowsItsListing : Obligations.KeyExpansionFollowsItsListing := by
  intro nk nw key old sizes
  obtain ⟨k, keySize, rfl, rfl⟩ := exists_keySize sizes
  exact ⟨scheduleWord_keyExpansion_of_lt keySize key old,
    fun _ fromNk belowNw => scheduleWord_keyExpansion_of_mem keySize key old fromNk belowNw,
    fun _ fromNw _ => scheduleWord_keyExpansion_of_le keySize key old fromNw⟩

/-! ### The command: its checks in their order (Listing KX-2) -/

section

variable {len : Nat} {s : State}

theorem execCmdKeyexp_of_fault (fault : s.fault = true) : execCmdKeyexp len s = .next s := by
  rw [execCmdKeyexp, if_pos fault]

variable (noFault : s.fault = false)
include noFault

theorem execCmdKeyexp_of_keyValid (keyValid : s.keyValid = true) :
    execCmdKeyexp len s = .next { s with errCode := .sequence } := by
  rw [execCmdKeyexp, if_neg (by simp [noFault]), if_pos keyValid, raiseError_of_not_fault noFault]

variable (noKey : s.keyValid = false)
include noKey

theorem execCmdKeyexp_of_keySize (reserved : s.ctrl.ksz = 3) :
    execCmdKeyexp len s = .next (raiseFatal .keySize s) := by
  rw [execCmdKeyexp, if_neg (by simp [noFault]), if_neg (by simp [noKey]), if_pos reserved]

variable (keySize : s.ctrl.ksz ≠ 3)
include keySize

theorem execCmdKeyexp_of_keyLength (wrong : len ≠ nkOf s.ctrl.ksz) :
    execCmdKeyexp len s = .next (raiseFatal .keyLength s) := by
  rw [execCmdKeyexp, if_neg (by simp [noFault]), if_neg (by simp [noKey]), if_neg keySize, if_pos wrong]

theorem execCmdKeyexp_nkOf : execCmdKeyexp (nkOf s.ctrl.ksz) s = .next (afterExpansion s) := by
  rw [execCmdKeyexp, if_neg (by simp [noFault]), if_neg (by simp [noKey]), if_neg keySize, if_neg (by simp),
    keyExpansion_released keySize]

end

/-- NW is the number of words of Nk + 7 round keys (R10). -/
theorem nwOf_eq {k : BitVec 2} (h : k ≠ 3) : nwOf k = 4 * (nkOf k + 7) := by
  have sizes := nkOf_nwOf_cases h
  omega

/-- Settles O19, by the first check that fails, and the expander when none does. -/
theorem keyexpCommand : Obligations.KeyexpCommand := by
  refine fun len s => ⟨execCmdKeyexp_of_fault, execCmdKeyexp_of_keyValid, execCmdKeyexp_of_keySize,
    fun noFault noKey keySize wrong => ?_, fun noFault noKey keySize right => ⟨Config.freeDatapath s.draws, ?_⟩⟩
  · rw [← nkOf_eq keySize] at wrong
    exact execCmdKeyexp_of_keyLength noFault noKey keySize wrong
  · obtain rfl : len = nkOf s.ctrl.ksz := right.trans (nkOf_eq keySize).symm
    rw [← nwOf_eq keySize]
    exact execCmdKeyexp_nkOf noFault noKey keySize

end Sys2Proof.Machine

/-! PROOFS. The statements about the block cipher (44_block_cipher). Its rounds are folds over the round index; a round of
InvCipher undoes a round of Cipher, shifted by the half round at which the two pipelines are cut; and what a run outputs
is Cipher of its block under the schedule of its key. -/

namespace Sys2Proof

/-! ### The listings as loops (R241, R244) -/

/-- The full rounds count up from 1 (R242). -/
theorem fullRounds_eq_foldl (w : Vector AesWord 60) (n : Nat) (s : Block) :
    fullRounds w n s = (List.range n).foldl (fun s i => fullRound w (i + 1) s) s := by
  induction n with
  | zero => rfl
  | succ n ih => rw [fullRounds, ih, List.range_succ, List.foldl_concat]

/-- The inverse full rounds count down to 1 (R245). -/
theorem invFullRounds_eq_foldl (w : Vector AesWord 60) (n : Nat) (s : Block) :
    invFullRounds w n s = (List.range n).foldl (fun s i => invFullRound w (n - i) s) s := by
  induction n generalizing s with
  | zero => rfl
  | succ n ih =>
    rw [invFullRounds, ih, List.range_succ_eq_map, List.foldl_cons, List.foldl_map]
    simp only [Nat.succ_eq_add_one, Nat.add_sub_add_right, Nat.sub_zero]

/-- Settles O48, each loop by induction on the number of its rounds. -/
theorem cipherFollowsItsListings : Obligations.CipherFollowsItsListings := by
  intro w nr x _
  rw [cipher, fullRounds_eq_foldl, invCipher, invFullRounds_eq_foldl]
  exact ⟨rfl, rfl⟩

/-! ### The inverse cipher (R246) -/

/-- Round i of InvCipher undoes round i of Cipher, half a round later: it leads from after the SubBytes and ShiftRows that
follow round i back to after those of round i itself. -/
theorem invFullRound_fullRound (w : Vector AesWord 60) (i : Nat) (s : Block) :
    invFullRound w i (shiftRows (subBytes (fullRound w i s))) = shiftRows (subBytes s) := by
  rw [invFullRound, invShiftRows_shiftRows, invSubBytes_subBytes, fullRound, addRoundKey_addRoundKey,
    invMixColumns_mixColumns]

theorem fullRound_invFullRound (w : Vector AesWord 60) (i : Nat) (s : Block) :
    fullRound w i (invSubBytes (invShiftRows (invFullRound w i s))) = invSubBytes (invShiftRows s) := by
  rw [fullRound, subBytes_invSubBytes, shiftRows_invShiftRows, invFullRound, mixColumns_invMixColumns,
    addRoundKey_addRoundKey]

/-- The rounds are undone from the last to the first. -/
theorem invFullRounds_fullRounds (w : Vector AesWord 60) (n : Nat) (s : Block) :
    invFullRounds w n (shiftRows (subBytes (fullRounds w n s))) = shiftRows (subBytes s) := by
  induction n with
  | zero => rfl
  | succ n ih => rw [fullRounds, invFullRounds, invFullRound_fullRound, ih]

theorem fullRounds_invFullRounds (w : Vector AesWord 60) (n : Nat) (s : Block) :
    fullRounds w n (invSubBytes (invShiftRows (invFullRounds w n s))) = invSubBytes (invShiftRows s) := by
  induction n generalizing s with
  | zero => rfl
  | succ n ih => rw [invFullRounds, fullRounds, ih, fullRound_invFullRound]

theorem invCipher_cipher (w : Vector AesWord 60) (nr : Nat) (x : Block) : invCipher w nr (cipher w nr x) = x := by
  rw [invCipher, cipher, finalRound, addRoundKey_addRoundKey, invFullRounds_fullRounds, invShiftRows_shiftRows,
    invSubBytes_subBytes, addRoundKey_addRoundKey]

theorem cipher_invCipher (w : Vector AesWord 60) (nr : Nat) (x : Block) : cipher w nr (invCipher w nr x) = x := by
  rw [cipher, finalRound, invCipher, addRoundKey_addRoundKey, fullRounds_invFullRounds, subBytes_invSubBytes,
    shiftRows_invShiftRows, addRoundKey_addRoundKey]

/-- Settles O49: the inverse laws hold for any number of rounds, so for the three legal ones. -/
theorem invCipherUndoesCipher : Obligations.InvCipherUndoesCipher := fun w nr x _ =>
  ⟨invCipher_cipher w nr x, cipher_invCipher w nr x⟩

end Sys2Proof

namespace Sys2Proof.Machine

/-! ### What a run outputs (Listing RS-1) -/

theorem after_wrKey (j : Fin 8) (v : Word) (s : State) : after (.wrKey j v) s = writeKey j v s := rfl

/-- Writing the eight KEY registers loads the key (R311). -/
theorem afterAll_loadKey (key : Vector Word 8) (s : State) : afterAll (loadKey key) s = { s with key := key } := by
  have writes : loadKey key = [.wrKey 0 key[0], .wrKey 1 key[1], .wrKey 2 key[2], .wrKey 3 key[3], .wrKey 4 key[4],
    .wrKey 5 key[5], .wrKey 6 key[6], .wrKey 7 key[7]] := rfl
  simp only [writes, afterAll, after_wrKey, writeKey]
  congr 1
  ext j hj
  interval_cases j <;> simp

/-- Writing the four IV registers loads the IV (R313). -/
theorem afterAll_loadIv (iv : Vector Word 4) (s : State) : afterAll (loadIv iv) s = { s with iv := iv } := by
  change { s with iv := (((s.iv.set 0 iv[0]).set 1 iv[1]).set 2 iv[2]).set 3 iv[3] } = _
  congr 1
  ext j hj
  interval_cases j <;> simp

theorem after_wrCtrl (ksz : BitVec 2) (dir : Direction) (mode : ChainMode) (s : State) :
    after (.wrCtrl ksz dir mode) s = startRun ⟨ksz, dir, mode⟩ s := rfl

/-- In ECB a LOADIV does nothing (R267). -/
theorem after_cmdLoadiv_of_ecb {len : Nat} {s : State} (ecb : s.ctrl.mode = .ecb) : after (.cmdLoadiv len) s = s :=
  after_of_exec (by rw [exec, execCmdLoadiv, if_pos ecb, ite_self])

/-- The state after a CTRL write, the key and its KEYEXP (R261, R220). -/
def withKey (c : Ctrl) (key : Vector Word 8) (s : State) : State := afterExpansion { startRun c s with key := key }

/-- In ECB the head of a run leaves its key's schedule and the IV registers. -/
theorem afterAll_startOfRun_ecb {ksz : BitVec 2} (keySize : ksz ≠ 3) (dir : Direction) (key : Vector Word 8)
    (iv : Vector Word 4) (s : State) :
    afterAll (startOfRun ksz dir .ecb key iv) s = { withKey ⟨ksz, dir, .ecb⟩ key s with iv := iv } := by
  have expansion : after (.cmdKeyexp (nkOf ksz)) { startRun ⟨ksz, dir, .ecb⟩ s with key := key } =
      withKey ⟨ksz, dir, .ecb⟩ key s := after_of_exec (execCmdKeyexp_nkOf rfl rfl keySize)
  simp only [startOfRun, afterAll_append, afterAll, afterAll_loadKey, afterAll_loadIv, after_wrCtrl, expansion]
  exact after_cmdLoadiv_of_ecb rfl

/-- A BLOCK whose checks pass outputs its result (R269 to R273). -/
theorem execCmdBlock_of_ready {s : State} (ready : BlockReady s) :
    execCmdBlock s = .next (afterBlock (blockResult s) s) := by
  obtain ⟨noFault, keyValid, hasIv, keySize⟩ := ready
  rw [execCmdBlock, if_neg (by simp [noFault]), if_neg (by simp [keyValid]), if_neg (by simpa using hasIv),
    blockPath_released keySize]

/-- Feeding a block loads it into DIN and performs the BLOCK (R315, R270). -/
theorem afterAll_feedBlock {s : State} (ready : BlockReady s) (x : Block) :
    afterAll (feedBlock x) s =
      afterBlock (blockResult { s with din := regsOfBlock x }) { s with din := regsOfBlock x } := by
  have loaded : (((s.din.set 0 (pack x.c0)).set 1 (pack x.c1)).set 2 (pack x.c2)).set 3 (pack x.c3) = regsOfBlock x := by
    ext j hj
    interval_cases j <;> simp [regsOfBlock]
  have inReady : BlockReady { s with din := regsOfBlock x } := { ready with }
  rw [← after_of_exec (i := .cmdBlock) (execCmdBlock_of_ready inReady), ← loaded]
  rfl

/-- An ECB encryption run outputs Cipher of its block under the schedule of its key, whatever the state in which the run
starts (R272). -/
theorem dout_of_ecb_encryption {ksz : BitVec 2} (keySize : ksz ≠ 3) (key : Vector Word 8) (iv : Vector Word 4)
    (x : Block) (s : State) :
    (afterAll (startOfRun ksz .encrypt .ecb key iv ++ feedBlock x) s).dout =
      regsOfBlock (cipher (keyExpansion (nkOf ksz) (nwOf ksz) (key.map unpack) s.w) (nrOf ksz) x) := by
  rw [afterAll_append, afterAll_startOfRun_ecb keySize, afterAll_feedBlock ⟨rfl, rfl, by simp [withKey], keySize⟩]
  change regsOfBlock (cipher _ (nrOf ksz) (blockOfRegs (regsOfBlock x))) = _
  rw [blockOfRegs_regsOfBlock]
  rfl

/-! ### The known answers (R248) -/

/-- Settles O50: each run outputs a value of Cipher, which is computed. -/
theorem knownAnswers : Obligations.KnownAnswers := by
  unfold Obligations.KnownAnswers
  intro key x result
  have output {ksz : BitVec 2} (keySize : ksz ≠ 3) : result ksz =
      regsOfBlock (cipher (keyExpansion (nkOf ksz) (nwOf ksz) (key.map unpack) State.reset.w) (nrOf ksz) x) :=
    dout_of_ecb_encryption keySize key zeroRegs x State.reset
  exact ⟨(output (by decide)).trans (by decide +kernel), (output (by decide)).trans (by decide +kernel),
    (output (by decide)).trans (by decide +kernel)⟩

end Sys2Proof.Machine

/-! PROOFS. The statements about the mode sequencer (45_mode_sequencer). A command answers by its first check that
applies; a BLOCK whose checks pass leaves `afterBlock` of `blockResult`, which is spelled out by mode and direction. A
stream is followed block by block: a decryption run keeps step with the encryption run that feeds it, and in a CBC
decryption a ciphertext block counts in its own place and in the next. -/

namespace Sys2Proof.Machine

/-- What a fatal error leaves, with the zero registers written out (R363). -/
theorem raiseFatal_eq (c : ErrorCode) (s : State) :
    raiseFatal c s = { s with fault := true, errCode := c, outValid := false, dout := #v[0, 0, 0, 0] } := rfl

/-! ### LOADIV: its checks in their order (Listing SEQ-2) -/

section

variable {len : Nat} {s : State}

theorem execCmdLoadiv_of_fault (fault : s.fault = true) : execCmdLoadiv len s = .next s := by
  rw [execCmdLoadiv, if_pos fault]

theorem execCmdLoadiv_of_ecb (ecb : s.ctrl.mode = .ecb) : execCmdLoadiv len s = .next s := by
  rw [execCmdLoadiv, if_pos ecb, ite_self]

variable (noFault : s.fault = false) (cbc : s.ctrl.mode = .cbc)
include noFault cbc

theorem execCmdLoadiv_of_ivValid (ivValid : s.ivValid = true) :
    execCmdLoadiv len s = .next { s with errCode := .sequence } := by
  rw [execCmdLoadiv, if_neg (by simp [noFault]), if_neg (by simp [cbc]), if_pos ivValid,
    raiseError_of_not_fault noFault]

variable (noIv : s.ivValid = false)
include noIv

theorem execCmdLoadiv_of_ivLength (wrong : len ≠ 4) : execCmdLoadiv len s = .next (raiseFatal .ivLength s) := by
  rw [execCmdLoadiv, if_neg (by simp [noFault]), if_neg (by simp [cbc]), if_neg (by simp [noIv]), if_pos wrong]

theorem execCmdLoadiv_four : execCmdLoadiv 4 s = .next (afterIvLoad s) := by
  rw [execCmdLoadiv, if_neg (by simp [noFault]), if_neg (by simp [cbc]), if_neg (by simp [noIv]), if_neg (by simp),
    afterIvLoad]

end

/-- Settles O21, by the first check that applies, and the load of CHAIN when none does. -/
theorem loadivCommand : Obligations.LoadivCommand := by
  refine fun len s => ⟨execCmdLoadiv_of_fault, fun _ => execCmdLoadiv_of_ecb, execCmdLoadiv_of_ivValid,
    fun noFault cbc noIv wrong => ?_, fun noFault cbc noIv right => ?_⟩
  · rw [← raiseFatal_eq]
    exact execCmdLoadiv_of_ivLength noFault cbc noIv wrong
  · rw [right]
    exact execCmdLoadiv_four noFault cbc noIv

/-! ### BLOCK: its checks in their order (R269) -/

section

variable {s : State}

theorem execCmdBlock_of_fault (fault : s.fault = true) : execCmdBlock s = .next s := by
  rw [execCmdBlock, if_pos fault]

variable (noFault : s.fault = false)
include noFault

theorem execCmdBlock_of_noKey (noKey : s.keyValid = false) : execCmdBlock s = .next (raiseFatal .noKey s) := by
  rw [execCmdBlock, if_neg (by simp [noFault]), if_pos (by simp [noKey])]

variable (keyValid : s.keyValid = true)
include keyValid

theorem execCmdBlock_of_noIv (cbc : s.ctrl.mode = .cbc) (noIv : s.ivValid = false) :
    execCmdBlock s = .next (raiseFatal .noIv s) := by
  rw [execCmdBlock, if_neg (by simp [noFault]), if_neg (by simp [keyValid]), if_pos (by simp [cbc, noIv])]

/-- The checks do not look at KSZ: past them BLOCK leaves some block as output, whatever KSZ is. -/
theorem execCmdBlock_of_keyAndIv (hasIv : s.ctrl.mode = .cbc → s.ivValid = true) :
    ∃ y, execCmdBlock s = .next (afterBlock y s) := by
  obtain ⟨p, d, path, -⟩ := blockPath_eq s
  refine ⟨d.s, ?_⟩
  rw [execCmdBlock, if_neg (by simp [noFault]), if_neg (by simp [keyValid]), if_neg (by simpa using hasIv), path]
  rfl

end

/-- Settles O22, by the first check that applies, and the output of `afterBlock` when none does. -/
theorem blockChecks : Obligations.BlockChecks := by
  refine fun s => ⟨execCmdBlock_of_fault, fun noFault noKey => ?_, fun noFault keyValid cbc noIv => ?_,
    fun noFault keyValid hasIv => ?_⟩
  · rw [← raiseFatal_eq]
    exact execCmdBlock_of_noKey noFault noKey
  · rw [← raiseFatal_eq]
    exact execCmdBlock_of_noIv noFault keyValid cbc noIv
  · obtain ⟨y, done⟩ := execCmdBlock_of_keyAndIv noFault keyValid hasIv
    exact ⟨afterBlock y s, done, rfl, noFault⟩

/-! ### BLOCK: the output and CHAIN by mode and direction (R271 to R273) -/

section

variable {s : State}

theorem blockResult_of_ecb (ecb : s.ctrl.mode = .ecb) :
    blockResult s =
      match s.ctrl.dir with
      | .encrypt => cipher s.w (nrOf s.ctrl.ksz) (dinOperand s)
      | .decrypt => invCipher s.w (nrOf s.ctrl.ksz) (dinOperand s) := by
  unfold blockResult
  rw [ecb]
  cases s.ctrl.dir <;> rfl

theorem blockChain_of_ecb (ecb : s.ctrl.mode = .ecb) (y : Block) : blockChain s y = s.chain := by
  simp [blockChain, ecb]

variable (cbc : s.ctrl.mode = .cbc)
include cbc

theorem blockResult_of_cbc_encrypt (encrypt : s.ctrl.dir = .encrypt) :
    blockResult s = cipher s.w (nrOf s.ctrl.ksz) ((dinOperand s).xor s.chain) := by
  simp [blockResult, cbc, encrypt]

theorem blockChain_of_cbc_encrypt (encrypt : s.ctrl.dir = .encrypt) (y : Block) : blockChain s y = y := by
  simp [blockChain, cbc, encrypt]

theorem blockResult_of_cbc_decrypt (decrypt : s.ctrl.dir = .decrypt) :
    blockResult s = (invCipher s.w (nrOf s.ctrl.ksz) (dinOperand s)).xor s.chain := by
  simp [blockResult, cbc, decrypt]

theorem blockChain_of_cbc_decrypt (decrypt : s.ctrl.dir = .decrypt) (y : Block) : blockChain s y = dinOperand s := by
  simp [blockChain, cbc, decrypt]

end

/-- Settles O23: `afterBlock` with the ECB output and CHAIN kept. -/
theorem blockEcb : Obligations.BlockEcb := by
  intro s ready ecb
  refine ⟨Config.freeDatapath s.draws, ?_⟩
  rw [exec, execCmdBlock_of_ready ready, afterBlock, blockChain_of_ecb ecb, blockResult_of_ecb ecb,
    nrOf_eq ready.keySize]
  rfl

/-- Settles O24: `afterBlock` with the output of CBC encryption, which is also the new CHAIN. -/
theorem blockCbcEncrypt : Obligations.BlockCbcEncrypt := by
  intro s ready cbc encrypt
  refine ⟨Config.freeDatapath s.draws, _, rfl, ?_⟩
  rw [exec, execCmdBlock_of_ready ready, afterBlock, blockChain_of_cbc_encrypt cbc encrypt,
    blockResult_of_cbc_encrypt cbc encrypt, nrOf_eq ready.keySize]
  rfl

/-- Settles O25: `afterBlock` with the output of CBC decryption under the old CHAIN, and the input as the new CHAIN. -/
theorem blockCbcDecrypt : Obligations.BlockCbcDecrypt := by
  intro s ready cbc decrypt
  refine ⟨Config.freeDatapath s.draws, ?_⟩
  rw [exec, execCmdBlock_of_ready ready, afterBlock, blockChain_of_cbc_decrypt cbc decrypt,
    blockResult_of_cbc_decrypt cbc decrypt, nrOf_eq ready.keySize]
  rfl

/-! ### A stream of blocks (Listing RS-1) -/

/-- The state with the block x in DIN (R77). -/
def withInput (x : Block) (s : State) : State := { s with din := regsOfBlock x }

/-- The output of a BLOCK on x. -/
def fedOutput (x : Block) (s : State) : Block := blockResult (withInput x s)

/-- The state after a BLOCK on x whose checks pass. -/
def afterFeed (x : Block) (s : State) : State := afterBlock (fedOutput x s) (withInput x s)

theorem dinOperand_withInput (x : Block) (s : State) : dinOperand (withInput x s) = x := blockOfRegs_regsOfBlock x

/-- What BLOCK needs it leaves in place for the next BLOCK. -/
theorem blockReady_afterFeed {s : State} (ready : BlockReady s) (x : Block) : BlockReady (afterFeed x s) :=
  { ready with }

/-- In a state in which BLOCK is ready, a stream puts out the first block's result and goes on after it. -/
theorem outputs_cons {s : State} (ready : BlockReady s) (x : Block) (xs : List Block) :
    outputs (x :: xs) s = fedOutput x s :: outputs xs (afterFeed x s) := by
  have fed : afterAll (feedBlock x) s = afterFeed x s := afterAll_feedBlock ready x
  rw [outputs, fed]
  congr 1
  exact blockOfRegs_regsOfBlock (fedOutput x s)

section

variable {s : State} (x : Block)

theorem fedOutput_of_ecb (ecb : s.ctrl.mode = .ecb) :
    fedOutput x s =
      match s.ctrl.dir with
      | .encrypt => cipher s.w (nrOf s.ctrl.ksz) x
      | .decrypt => invCipher s.w (nrOf s.ctrl.ksz) x := by
  rw [fedOutput, blockResult_of_ecb (s := withInput x s) ecb, dinOperand_withInput]
  rfl

theorem chain_afterFeed_of_ecb (ecb : s.ctrl.mode = .ecb) : (afterFeed x s).chain = s.chain :=
  blockChain_of_ecb (s := withInput x s) ecb _

variable (cbc : s.ctrl.mode = .cbc)
include cbc

theorem fedOutput_of_cbc_encrypt (encrypt : s.ctrl.dir = .encrypt) :
    fedOutput x s = cipher s.w (nrOf s.ctrl.ksz) (x.xor s.chain) := by
  rw [fedOutput, blockResult_of_cbc_encrypt (s := withInput x s) cbc encrypt, dinOperand_withInput]
  rfl

theorem chain_afterFeed_of_cbc_encrypt (encrypt : s.ctrl.dir = .encrypt) : (afterFeed x s).chain = fedOutput x s :=
  blockChain_of_cbc_encrypt (s := withInput x s) cbc encrypt _

theorem fedOutput_of_cbc_decrypt (decrypt : s.ctrl.dir = .decrypt) :
    fedOutput x s = (invCipher s.w (nrOf s.ctrl.ksz) x).xor s.chain := by
  rw [fedOutput, blockResult_of_cbc_decrypt (s := withInput x s) cbc decrypt, dinOperand_withInput]
  rfl

theorem chain_afterFeed_of_cbc_decrypt (decrypt : s.ctrl.dir = .decrypt) : (afterFeed x s).chain = x :=
  (blockChain_of_cbc_decrypt (s := withInput x s) cbc decrypt _).trans (dinOperand_withInput x s)

end

/-! ### The head of a run (Listing RS-1) -/

/-- Before its LOADIV, the head of a run has loaded the configuration, the key's schedule and the IV registers. -/
theorem afterAll_startOfRun {ksz : BitVec 2} (keySize : ksz ≠ 3) (dir : Direction) (mode : ChainMode)
    (key : Vector Word 8) (iv : Vector Word 4) (s : State) :
    afterAll (startOfRun ksz dir mode key iv) s =
      after (.cmdLoadiv 4) { withKey ⟨ksz, dir, mode⟩ key s with iv := iv } := by
  have expansion : after (.cmdKeyexp (nkOf ksz)) { startRun ⟨ksz, dir, mode⟩ s with key := key } =
      withKey ⟨ksz, dir, mode⟩ key s := after_of_exec (execCmdKeyexp_nkOf rfl rfl keySize)
  simp only [startOfRun, afterAll_append, afterAll, afterAll_loadKey, afterAll_loadIv, after_wrCtrl, expansion]

/-- In CBC the head of a run also loads CHAIN with the IV. -/
theorem afterAll_startOfRun_cbc {ksz : BitVec 2} (keySize : ksz ≠ 3) (dir : Direction) (key : Vector Word 8)
    (iv : Vector Word 4) (s : State) :
    afterAll (startOfRun ksz dir .cbc key iv) s = afterIvLoad { withKey ⟨ksz, dir, .cbc⟩ key s with iv := iv } :=
  (afterAll_startOfRun keySize dir .cbc key iv s).trans (after_of_exec (execCmdLoadiv_four rfl rfl rfl))

/-! ### The round trip (R246, R275) -/

/-- The state t of a decryption run stands where the state s of an encryption run stands: both are ready, with one key
size, mode, CHAIN and schedule. -/
structure Undoes (t s : State) : Prop where
  encReady : BlockReady s
  decReady : BlockReady t
  encrypt : s.ctrl.dir = .encrypt
  decrypt : t.ctrl.dir = .decrypt
  ksz : t.ctrl.ksz = s.ctrl.ksz
  mode : t.ctrl.mode = s.ctrl.mode
  chain : t.chain = s.chain
  schedule : ∀ i, i < nwOf s.ctrl.ksz → scheduleWord t.w i = scheduleWord s.w i

namespace Undoes

variable {t s : State} (h : Undoes t s)
include h

/-- InvCipher on the one side undoes Cipher on the other: it reads only words in which the schedules agree. -/
theorem invCipher_cipher (x : Block) : invCipher t.w (nrOf t.ctrl.ksz) (cipher s.w (nrOf s.ctrl.ksz) x) = x := by
  obtain ⟨-, words⟩ := nrOf_nwOf h.encReady.keySize
  rw [h.ksz, invCipher_congr fun i hi => h.schedule i (words ▸ hi), Sys2Proof.invCipher_cipher]

/-- The decryption of an output is the input, and leaves the CHAIN that the encryption left. -/
theorem fedOutput_fedOutput (x : Block) :
    fedOutput (fedOutput x s) t = x ∧ (afterFeed (fedOutput x s) t).chain = (afterFeed x s).chain := by
  cases mode : s.ctrl.mode with
  | ecb =>
    have mode' := h.mode.trans mode
    refine ⟨?_, by rw [chain_afterFeed_of_ecb _ mode', chain_afterFeed_of_ecb _ mode, h.chain]⟩
    rw [fedOutput_of_ecb _ mode', h.decrypt, fedOutput_of_ecb _ mode, h.encrypt]
    exact h.invCipher_cipher x
  | cbc =>
    have mode' := h.mode.trans mode
    refine ⟨?_, (chain_afterFeed_of_cbc_decrypt _ mode' h.decrypt).trans
      (chain_afterFeed_of_cbc_encrypt x mode h.encrypt).symm⟩
    rw [fedOutput_of_cbc_decrypt _ mode' h.decrypt, fedOutput_of_cbc_encrypt _ mode h.encrypt, h.invCipher_cipher,
      h.chain, Block.xor_xor_cancel]

/-- The two runs stay in step, block by block. -/
theorem fed (x : Block) : Undoes (afterFeed (fedOutput x s) t) (afterFeed x s) :=
  { h with
    encReady := blockReady_afterFeed h.encReady x
    decReady := blockReady_afterFeed h.decReady _
    chain := (h.fedOutput_fedOutput x).2 }

/-- What the encryption run puts out the decryption run takes back. -/
theorem outputs_outputs (xs : List Block) : outputs (outputs xs s) t = xs := by
  induction xs generalizing s t with
  | nil => rfl
  | cons x xs ih => rw [outputs_cons h.encReady, outputs_cons h.decReady, (h.fedOutput_fedOutput x).1, ih (h.fed x)]

end Undoes

/-- The heads of two runs with one key and IV leave states in step, whatever W held before either. -/
theorem undoes_startOfRun {ksz : BitVec 2} (keySize : ksz ≠ 3) (mode : ChainMode) (key : Vector Word 8)
    (iv : Vector Word 4) (s s' : State) :
    Undoes (afterAll (startOfRun ksz .decrypt mode key iv) s') (afterAll (startOfRun ksz .encrypt mode key iv) s) := by
  have schedule := fun i (hi : i < nwOf ksz) =>
    scheduleWord_keyExpansion_congr keySize (key.map unpack) s'.w s.w hi
  cases mode with
  | ecb =>
    rw [afterAll_startOfRun_ecb keySize, afterAll_startOfRun_ecb keySize]
    exact ⟨⟨rfl, rfl, nofun, keySize⟩, ⟨rfl, rfl, nofun, keySize⟩, rfl, rfl, rfl, rfl, rfl, schedule⟩
  | cbc =>
    rw [afterAll_startOfRun_cbc keySize, afterAll_startOfRun_cbc keySize]
    exact ⟨⟨rfl, rfl, fun _ => rfl, keySize⟩, ⟨rfl, rfl, fun _ => rfl, keySize⟩, rfl, rfl, rfl, rfl, rfl,
      schedule⟩

/-- Settles O51: the two runs start in step and stay so. -/
theorem runRoundTrip : Obligations.RunRoundTrip := fun _ mode key iv xs s s' keySize =>
  (undoes_startOfRun keySize mode key iv s s').outputs_outputs xs

/-! ### Errors in a CBC ciphertext (R277) -/

/-- The plaintext blocks of a CBC ciphertext, v being the block before it. -/
def cbcDecryption (dec : Block → Block) : Block → List Block → List Block
  | _, [] => []
  | v, c :: cs => (dec c).xor v :: cbcDecryption dec c cs

theorem length_cbcDecryption (dec : Block → Block) (v : Block) (cs : List Block) :
    (cbcDecryption dec v cs).length = cs.length := by
  induction cs generalizing v with
  | nil => rfl
  | cons c cs ih => rw [cbcDecryption, List.length_cons, ih, List.length_cons]

/-- What follows in a stream depends on its past through the last block alone. -/
theorem cbcDecryption_append (dec : Block → Block) (v : Block) (pre cs : List Block) :
    cbcDecryption dec v (pre ++ cs) = cbcDecryption dec v pre ++ cbcDecryption dec (pre.getLastD v) cs := by
  induction pre generalizing v with
  | nil => rfl
  | cons c pre ih => rw [List.cons_append, cbcDecryption, ih, cbcDecryption, List.cons_append, List.getLastD_cons]

/-- A ready CBC decryption state puts out the CBC decryption of the stream from its CHAIN (R273). -/
theorem outputs_of_cbc_decrypt {s : State} (ready : BlockReady s) (cbc : s.ctrl.mode = .cbc)
    (decrypt : s.ctrl.dir = .decrypt) (cs : List Block) :
    outputs cs s = cbcDecryption (invCipher s.w (nrOf s.ctrl.ksz)) s.chain cs := by
  induction cs generalizing s with
  | nil => rfl
  | cons c cs ih =>
    rw [outputs_cons ready, ih (blockReady_afterFeed ready c) cbc decrypt, fedOutput_of_cbc_decrypt c cbc decrypt,
      chain_afterFeed_of_cbc_decrypt c cbc decrypt]
    rfl

/-- Settles O52: the changed block is decrypted in its own place and is the block before the next one. -/
theorem cbcErrorPropagation : Obligations.CbcErrorPropagation := by
  intro s pre post c d delta ready cbc decrypt dec prev
  have stream (cs : List Block) :
      outputs (pre ++ cs) s = cbcDecryption dec s.chain pre ++ cbcDecryption dec prev cs := by
    rw [outputs_of_cbc_decrypt ready cbc decrypt, nrOf_eq ready.keySize]
    exact cbcDecryption_append dec s.chain pre cs
  refine ⟨cbcDecryption dec s.chain pre, cbcDecryption dec d post, length_cbcDecryption _ _ _,
    length_cbcDecryption _ _ _, stream _, ?_, stream _, stream _⟩
  rw [Block.xor_assoc]
  exact stream _

/-! ### CTRL writes, NOP, the reserved opcodes and CLEAR (R261, R264, R265, R274) -/

/-- Settles O16, by the fields of the decoder and of `startRun`. -/
theorem ctrlWriteStartsARun : Obligations.CtrlWriteStartsARun := by
  refine ⟨fun v => ?_, fun ksz dir mode s => rfl⟩
  rw [decode_transactionWord, if_pos rfl]
  rfl

/-- A write to CMD is the command of its value (R103). -/
theorem decode_write_cmd (v : Word) : decode (transactionWord true 0x01 v) = decodeCommand v := by
  rw [decode_transactionWord, if_pos rfl]
  rfl

/-- Settles O17: OP alone makes the command a NOP. -/
theorem nopDoesNothing : Obligations.NopDoesNothing := by
  intro v s op
  refine ⟨?_, rfl⟩
  rw [decode_write_cmd, decodeCommand, op]
  rfl

/-- The opcodes 4 to 14 are the reserved ones (R265). -/
theorem decodeCommand_mem_reservedOpcodes {v : Word} (lo : 4 ≤ (opOf v).toNat) (hi : (opOf v).toNat ≤ 14) :
    decodeCommand v ∈ reservedOpcodes := by
  unfold decodeCommand
  generalize (opOf v).toNat = op at lo hi
  interval_cases op <;> simp [reservedOpcodes]

/-- Each of the 11 has the one meaning (R265). -/
theorem exec_of_mem_reservedOpcodes {i : Instr} (reserved : i ∈ reservedOpcodes) (s : State) :
    exec i s = reservedCommand s := by
  simp only [reservedOpcodes, List.mem_cons, List.not_mem_nil, or_false] at reserved
  rcases reserved with rfl | rfl | rfl | rfl | rfl | rfl | rfl | rfl | rfl | rfl | rfl <;> rfl

/-- Settles O18: OP chooses among the 11, which share one meaning. (The list of the 11 already has the
obligation's name.) -/
theorem reservedOpcodes_recordIllegalCmd : Obligations.ReservedOpcodes := by
  refine ⟨fun v lo hi => ?_, fun i reserved s => ?_⟩
  · rw [decode_write_cmd]
    exact decodeCommand_mem_reservedOpcodes lo hi
  · rw [exec_of_mem_reservedOpcodes reserved, reservedCommand_eq]

/-- Settles O26: the reset input is `clearAll` with the read data dropped, and `clearAll` holds the reset values. -/
theorem clearCommandAndResetInput : Obligations.ClearCommandAndResetInput :=
  ⟨fun s rest reset => ⟨clearAll { s with inputs := rest }, rfl, step_of_reset reset⟩,
    fun s => ⟨Config.freeDatapath s.draws, Config.freeSchedule s.draws, rfl⟩⟩

end Sys2Proof.Machine

/-! PROOFS. The statements about register access (46_register_access). An access is decoded by its address, and a
write's value is an operand or ignored; the value a read answers is taken apart into the fields of its register. -/

namespace Sys2Proof

/-! ### The words of the accesses (R101, R102) -/

/-- The read word of an instruction's address is decoded to it with any DATA, not only the canonical 0 (R101). -/
theorem decode_read_of_encode {i : Instr} {a : BitVec 5} (wf : i.wellFormed = true)
    (canonical : encode i = encodeRead a) (v : Word) : decode (transactionWord false a v) = i := by
  rw [← decode_encode wf, canonical, encodeRead, decode_transactionWord, decode_transactionWord]
  rfl

theorem decode_write (a : BitVec 5) (v : Word) : decode (transactionWord true a v) = decodeWrite a v := by
  rw [decode_transactionWord, if_pos rfl]

/-! ### The fields of CTRL (R34) -/

/-- The fields of CTRL stand in the word at their places: the 16 words are checked one by one. -/
theorem fields_ctrlWord (ksz : BitVec 2) (dir : Direction) (mode : ChainMode) :
    (ctrlWord ksz dir mode).extractLsb' 0 2 = ksz ∧ ((ctrlWord ksz dir mode).getLsbD 2 = true ↔ dir = .decrypt) ∧
      ((ctrlWord ksz dir mode).getLsbD 3 = true ↔ mode = .cbc) ∧ (ctrlWord ksz dir mode).extractLsb' 4 28 = 0 := by
  cases dir <;> cases mode <;> revert ksz <;> decide

/-! ### Registers -/

theorem getElem_set_register {n : Nat} (r : Vector Word n) (j k : Fin n) (v : Word) :
    (r.set j v)[k] = if k = j then v else r[k] := by
  simp [Vector.getElem_set, Fin.ext_iff, eq_comm]

end Sys2Proof

namespace Sys2Proof.Machine

/-! ### The fields of STATUS (R41, R48) -/

/-- The flags are the bits 0 to 4. -/
theorem flags_statusWord (s : State) :
    (statusWord s).getLsbD 0 = s.keyValid ∧ (statusWord s).getLsbD 1 = s.ivValid ∧
      (statusWord s).getLsbD 2 = s.outValid ∧ (statusWord s).getLsbD 3 = s.fault ∧
      (statusWord s).getLsbD 4 = s.busy := by
  refine ⟨?_, ?_, ?_, ?_, ?_⟩ <;>
  · rw [statusWord, BitVec.getLsbD_append]
    simp only [BitVec.getLsbD_append]
    simp

/-- Above the flags, the fields of more than one bit and the reserved bits between them. -/
theorem fields_statusWord (s : State) :
    (statusWord s).extractLsb' 5 3 = 0 ∧ (statusWord s).extractLsb' 8 4 = s.errCode.code ∧
      (statusWord s).extractLsb' 12 4 = 0 ∧ (statusWord s).extractLsb' 16 4 = statusNr s.ctrl.ksz ∧
      (statusWord s).extractLsb' 20 4 = statusNk s.ctrl.ksz ∧ (statusWord s).extractLsb' 24 8 = 0 := by
  refine ⟨?_, ?_, ?_, ?_, ?_, ?_⟩ <;>
  · rw [statusWord, BitVec.extractLsb'_append_eq_of_le (by decide)]
    simp (disch := decide) only [BitVec.extractLsb'_append_eq_of_le, BitVec.extractLsb'_append_eq_of_add_le]
    simp

/-- Nk and Nr fit the 4 bits of their fields. -/
theorem statusNk_statusNr (ksz : BitVec 2) :
    ((statusNk ksz).toNat, (statusNr ksz).toNat) =
      if ksz = 0 then (4, 10) else if ksz = 1 then (6, 12) else if ksz = 2 then (8, 14) else (0, 0) := by
  revert ksz
  decide

/-- Settles O9, by the fields of `statusWord`. -/
theorem statusRead : Obligations.StatusRead := by
  intro s v
  obtain ⟨keyValid, ivValid, outValid, fault, busy⟩ := flags_statusWord s
  obtain ⟨bits5, errCode, bits12, nr, nk, bits24⟩ := fields_statusWord s
  refine ⟨decode_read_of_encode rfl rfl v, statusWord s, rfl, keyValid, ivValid, outValid, fault, busy, bits5, bits12,
    errCode.trans ?_, ?_, bits24⟩
  · cases s.errCode <;> rfl
  · rw [nk, nr, statusNk_statusNr]

/-! ### The window on the key schedule (R51) -/

/-- NW grows by 8 words for each step of KSZ (R10, R35). -/
theorem nwOf_eq_add {ksz : BitVec 2} (keySize : ksz ≠ 3) : nwOf ksz = 44 + 8 * ksz.toNat := by
  revert ksz
  decide

/-- Equal but for KSZ = 3, which has no schedule (log 13). -/
theorem nwOf_le (ksz : BitVec 2) : nwOf ksz ≤ 44 + 8 * ksz.toNat := by
  revert ksz
  decide

theorem rkdataValue_of_lt {s : State} {i : Fin 60} (index : s.rkidx.toNat = i.val) (keyValid : s.keyValid = true)
    (inside : i.val < nwOf s.ctrl.ksz) : rkdataValue s = pack s.w[i] := by
  rw [rkdataValue, index, if_pos ⟨keyValid, inside⟩]
  simp [scheduleWord]

theorem rkdataValue_of_le {s : State} (outside : nwOf s.ctrl.ksz ≤ s.rkidx.toNat) : rkdataValue s = 0 :=
  if_neg fun visible => absurd visible.2 (Nat.not_lt.2 outside)

theorem rkdataValue_of_noKey {s : State} (noKey : s.keyValid = false) : rkdataValue s = 0 := by
  simp [rkdataValue, noKey]

/-- Settles O10: unpacking the value read gives back the bytes of the word; with KSZ = 3 every index is past NW = 0. -/
theorem windowRead : Obligations.WindowRead := by
  refine fun s v => ⟨decode_read_of_encode rfl rfl v, rkdataValue s, rfl, fun i index keyValid keySize inside => ?_, ?_⟩
  · rw [← nwOf_eq_add keySize] at inside
    have bytes : unpack (rkdataValue s) = s.w[i] := by rw [rkdataValue_of_lt index keyValid inside, unpack_pack]
    exact ⟨congrArg AesWord.b0 bytes, congrArg AesWord.b1 bytes, congrArg AesWord.b2 bytes, congrArg AesWord.b3 bytes⟩
  · rintro (noKey | noSize | outside)
    · exact rkdataValue_of_noKey noKey
    · have noWords : nwOf s.ctrl.ksz = 0 := by
        rw [noSize]
        rfl
      exact rkdataValue_of_le (noWords.trans_le (Nat.zero_le _))
    · exact rkdataValue_of_le ((nwOf_le _).trans outside)

/-! ### The other reads (R300 to R318) -/

/-- Settles O8: each read answers its value by the dispatch, and CTRL's is `ctrlWord`. -/
theorem controlReads : Obligations.ControlReads :=
  fun s v => ⟨decode_read_of_encode rfl rfl v, decode_read_of_encode rfl rfl v, decode_read_of_encode rfl rfl v,
    decode_read_of_encode rfl rfl v, decode_read_of_encode rfl rfl v, decode_read_of_encode rfl rfl v,
    ⟨ctrlWord s.ctrl.ksz s.ctrl.dir s.ctrl.mode, rfl, fields_ctrlWord _ _ _⟩, rfl, rfl, rfl, fun _ => rfl⟩

/-- Settles O11: the register number is read back from the address. -/
theorem dataRegisterReads : Obligations.DataRegisterReads := by
  refine fun s v => ⟨?_, ?_, ?_, ?_, ?_⟩ <;> exact fun j => ⟨decode_read_of_encode rfl rfl v, rfl⟩

/-! ### Register writes (R303 to R319) -/

/-- Settles O14: the value written is no operand of these instructions, whose meaning is to skip. -/
theorem ignoredWrites : Obligations.IgnoredWrites := by
  refine fun s v => ⟨decode_write 0x02 v, rfl, decode_write 0x04 v, rfl, decode_write 0x05 v, rfl,
    fun j => ⟨?_, rfl⟩, fun j => ⟨?_, rfl⟩, fun j => ⟨?_, rfl⟩⟩ <;>
  · rw [decode_write]
    fin_cases j <;> rfl

/-- Settles O15: the words of the registers are the encodings of the writes, and each write sets one register. -/
theorem dataRegisterWrites : Obligations.DataRegisterWrites :=
  fun s v => ⟨fun j => ⟨decode_encode (i := .wrKey j v) rfl, s.key.set j v, rfl, (getElem_set_register _ j · v)⟩,
    fun j => ⟨decode_encode (i := .wrIv j v) rfl, s.iv.set j v, rfl, (getElem_set_register _ j · v)⟩,
    fun j => ⟨decode_encode (i := .wrDin j v) rfl, s.din.set j v, rfl, (getElem_set_register _ j · v)⟩,
    decode_write 0x03 v, fun _ => rfl⟩

end Sys2Proof.Machine

/-! PROOFS. The statements about the host text adapter (47_host_text_adapter). What becomes of a line is said once per
kind of line; a line's value is that of its digits in base 16, and a group of 8 of them is a register. Every
transaction of a run keeps what the adapter relies on, so the core is ready for a BLOCK from the last configuration
check to the end. -/

namespace Sys2Proof.Machine.Adapter

/-! ### Malformed lines (R336) -/

/-- The characters of a block line are those of the two ranges of `[0-9A-F]` (R331). -/
theorem isBlockChar_iff (b : Byte) :
    isBlockChar b = true ↔ 0x30 ≤ b.toNat ∧ b.toNat ≤ 0x39 ∨ 0x41 ≤ b.toNat ∧ b.toNat ≤ 0x46 := by
  simp [isBlockChar, isDigit, isUpper]

theorem blockLines_cons_of_malformed {l : Line} (malformed : ¬ l.all isBlockChar = true) (pol : Policies)
    (ls : List Line) (s : State) (out : List Byte) : blockLines pol (l :: ls) s out = blockLines pol ls s out := by
  rw [blockLines, if_neg malformed]

/-- Lines that are processed alike whatever the core and the output stay so behind other lines. -/
theorem blockLines_append_congr {pol : Policies} {ls ls' : List Line}
    (alike : ∀ s out, blockLines pol ls s out = blockLines pol ls' s out) (pre : List Line) (s : State)
    (out : List Byte) : blockLines pol (pre ++ ls) s out = blockLines pol (pre ++ ls') s out := by
  induction pre generalizing s out with
  | nil => exact alike s out
  | cons p pre ih => simp only [List.cons_append, blockLines, ih]

/-- Settles O56: the line is skipped where it stands, and so behind the lines before it. -/
theorem malformedLinesAreSkipped : Obligations.MalformedLinesAreSkipped := by
  rintro pol pre post l s out ⟨b, member, outside⟩
  have malformed : ¬ l.all isBlockChar = true := fun all =>
    outside ((isBlockChar_iff b).1 (List.all_eq_true.1 all b member))
  exact blockLines_append_congr (blockLines_cons_of_malformed malformed pol post) pre s out

/-! ### The value of a line (R331, R337) -/

/-- The number that a line's digits spell, the first the most significant (R337). -/
def lineValue (l : Line) : Nat := l.foldl (fun acc b => 16 * acc + digitValue b) 0

/-- The digits of a number are listed from the least significant on. -/
theorem lineValue_eq_ofDigits (l : Line) : lineValue l = Nat.ofDigits 16 (l.reverse.map digitValue) := by
  rw [lineValue, List.foldl_eq_foldr_reverse, Nat.ofDigits_eq_foldr, List.foldr_map]
  simp only [Nat.cast_id, Nat.add_comm]

theorem lineValue_append (a b : Line) : lineValue (a ++ b) = 16 ^ b.length * lineValue a + lineValue b := by
  simp [lineValue_eq_ofDigits, Nat.ofDigits_append, Nat.add_comm]

theorem lineValue_concat (l : Line) (b : Byte) : lineValue (l ++ [b]) = 16 * lineValue l + digitValue b := by
  simp [lineValue]

/-- Zeros on the left do not count. -/
theorem lineValue_padLeft (l : Line) : lineValue (padLeft l) = lineValue l := by
  have zero : digitValue 0x30#8 = 0 := rfl
  simp [padLeft, lineValue_eq_ofDigits, zero]

/-- A data character is a digit in base 16 (R331). -/
theorem digitValue_lt {b : Byte} (digit : isBlockChar b = true) : digitValue b < 16 := by
  revert b
  decide

theorem lineValue_lt {l : Line} (digits : ∀ b ∈ l, isBlockChar b = true) : lineValue l < 16 ^ l.length := by
  rw [lineValue_eq_ofDigits]
  have bound : ∀ x ∈ l.reverse.map digitValue, x < 16 := by
    simpa using fun b member => digitValue_lt (digits b member)
  simpa using Nat.ofDigits_lt_base_pow_length (by decide) bound

/-! ### Groups (R77, R337) -/

theorem groupWord_concat (l : Line) (b : Byte) :
    groupWord (l ++ [b]) = (groupWord l <<< 4) ||| BitVec.ofNat 32 (digitValue b) := by
  simp [groupWord]

/-- A word with its top digit 0 makes room for a digit at its end. -/
theorem toNat_shiftLeft_or_ofNat {w : Word} {n : Nat} (room : w.toNat < 2 ^ 28) (digit : n < 2 ^ 4) :
    ((w <<< 4) ||| BitVec.ofNat 32 n).toNat = 16 * w.toNat + n := by
  rw [BitVec.toNat_or, BitVec.toNat_shiftLeft, BitVec.toNat_ofNat, Nat.mod_eq_of_lt (by omega),
    Nat.mod_eq_of_lt (by omega), ← Nat.shiftLeft_add_eq_or_of_lt digit]
  omega

/-- Up to 8 digits fit a register. -/
theorem toNat_groupWord {l : Line} (digits : ∀ b ∈ l, isBlockChar b = true) (fits : l.length ≤ 8) :
    (groupWord l).toNat = lineValue l := by
  induction l using List.reverseRecOn with
  | nil => rfl
  | append_singleton l b ih =>
    rw [List.length_append, List.length_singleton] at fits
    have word := ih (fun c member => digits c (by simp [member])) (by omega)
    have room : lineValue l < 16 ^ 7 :=
      (lineValue_lt fun c member => digits c (by simp [member])).trans_le (Nat.pow_le_pow_right (by decide) (by omega))
    rw [groupWord_concat, toNat_shiftLeft_or_ofNat (by omega) (digitValue_lt (digits b (by simp))), word,
      lineValue_concat]

theorem toNat_group {d : Line} (digits : ∀ b ∈ d, isBlockChar b = true) (j : Nat) :
    (group d j).toNat = lineValue ((d.drop (8 * j)).take 8) :=
  toNat_groupWord (fun b member => digits b (List.mem_of_mem_drop (List.mem_of_mem_take member)))
    (List.length_take_le _ _)

/-- Where the groups before group j spell the digits before it, group j appended adds its own 8 digits. -/
theorem toNat_append_group {d : Line} (digits : ∀ b ∈ d, isBlockChar b = true) {j m : Nat} {x : BitVec m}
    (inside : 8 * j + 8 ≤ d.length) (before : x.toNat = lineValue (d.take (8 * j))) :
    (x ++ group d j).toNat = lineValue (d.take (8 * j + 8)) := by
  have length : ((d.drop (8 * j)).take 8).length = 8 := by simp; omega
  rw [BitVec.toNat_append, ← Nat.shiftLeft_add_eq_or_of_lt (group d j).isLt, toNat_group digits, before, List.take_add,
    lineValue_append, length, Nat.shiftLeft_eq, Nat.mul_comm, show 2 ^ 32 = 16 ^ 8 from rfl]

/-- The four groups of 32 digits together have the value that the digits spell. -/
theorem toNat_groups {d : Line} (digits : ∀ b ∈ d, isBlockChar b = true) (length : d.length = 32) :
    (group d 0 ++ group d 1 ++ group d 2 ++ group d 3).toNat = lineValue d := by
  have first : (group d 0).toNat = lineValue (d.take 8) := toNat_group digits 0
  have second := toNat_append_group digits (j := 1) (by omega) first
  have third := toNat_append_group digits (j := 2) (by omega) second
  have fourth := toNat_append_group digits (j := 3) (by omega) third
  rwa [List.take_of_length_le (by omega)] at fourth

/-! ### Short lines (R337) -/

theorem lineUse_of_short {l : Line} (nonempty : 1 ≤ l.length) (short : l.length ≤ 32) (pol : Policies) :
    lineUse pol l = .block (padLeft l) := by
  rw [lineUse, if_neg (by omega), if_neg (by omega)]

theorem length_padLeft {l : Line} (short : l.length ≤ 32) : (padLeft l).length = 32 := by
  simp [padLeft, short]

theorem isBlockChar_of_mem_padLeft {l : Line} (digits : ∀ b ∈ l, isBlockChar b = true) :
    ∀ b ∈ padLeft l, isBlockChar b = true := by
  intro b member
  rcases List.mem_append.1 member with zero | old
  · rw [List.eq_of_mem_replicate zero]
    rfl
  · exact digits b old

/-- Settles O57: the block is the padded line. -/
theorem shortLinesAreZeroPadded : Obligations.ShortLinesAreZeroPadded := by
  intro pol l digits nonempty short
  refine ⟨padLeft l, lineUse_of_short nonempty short pol, ?_⟩
  calc (group (padLeft l) 0 ++ group (padLeft l) 1 ++ group (padLeft l) 2 ++ group (padLeft l) 3).toNat
      = lineValue (padLeft l) :=
        toNat_groups (isBlockChar_of_mem_padLeft (List.all_eq_true.1 digits)) (length_padLeft short)
    _ = lineValue l := lineValue_padLeft l


/-! ### A transaction of the adapter (R71, R335) -/

/-- The host's view of an instruction that it issues while BUSY = 0. -/
theorem issue_of_not_busy {i : Instr} {s : State} (wf : i.wellFormed = true) (notBusy : s.busy = false) :
    issue i s = after i { s with rdata := none } := by
  rw [issue, perform_of_not_busy notBusy, decode_encode wf]

theorem exec_issue {i : Instr} {s : State} (wf : i.wellFormed = true) (notBusy : s.busy = false) :
    exec i { s with rdata := none } = .next (issue i s) := by
  rw [issue_of_not_busy wf notBusy, exec_eq_after]

/-- `RD STATUS` answers and does nothing else. -/
theorem statusError_fst {s : State} (notBusy : s.busy = false) : (statusError s).1 = respond (statusWord s) s :=
  issue_of_not_busy rfl notBusy

/-- `RD STATUS` shows an error while FAULT = 1 (R41). -/
theorem fault_of_statusError {s : State} (notBusy : s.busy = false) (passed : (statusError s).2 = none) :
    s.fault = false := by
  have shown : (lastRead (statusError s).1).getLsbD 3 = s.fault := by
    obtain ⟨-, -, -, fault, -⟩ := flags_statusWord s
    rw [statusError_fst notBusy, ← fault]
    rfl
  rw [← shown]
  simpa [statusError] using passed

/-- LONG_LINE is no error of the core. -/
theorem ne_longLine_of_statusError {s : State} {e : AdapterError} (shown : (statusError s).2 = some e) :
    e ≠ .longLine := by
  rintro rfl
  obtain ⟨-, named⟩ := (Option.ite_none_right_eq_some).1 shown
  revert named
  unfold errorOfStatus
  split <;> exact nofun

/-! ### What the transactions of a run keep (R342) -/

/-- The port is ready and CTRL holds the mode of the run. -/
structure InRun (m : ChainMode) (s : State) : Prop where
  notBusy : s.busy = false
  mode : s.ctrl.mode = m

/-- A run whose key is expanded. -/
structure Keyed (m : ChainMode) (s : State) : Prop extends InRun m s where
  keyValid : s.keyValid = true

/-- A run in which a BLOCK passes its checks (R269). -/
structure Ready (m : ChainMode) (s : State) : Prop extends Keyed m s where
  noFault : s.fault = false
  ivValid : s.ctrl.mode = .cbc → s.ivValid = true

theorem effect_inRun {m : ChainMode} {i : Instr} {s t : State} (stays : staysInRun i = true) (e : Effect s i t)
    (h : InRun m s) : InRun m t := by
  cases e
  case runStarted => simp [staysInRun] at stays
  case cleared => simp [staysInRun] at stays
  all_goals exact { h with }

/-- Once the key and the IV are there, no effect is a fatal error. -/
theorem effect_ready {m : ChainMode} {i : Instr} {s t : State} (stays : staysInRun i = true) (e : Effect s i t)
    (h : Ready m s) : Ready m t := by
  cases e
  case runStarted => simp [staysInRun] at stays
  case cleared => simp [staysInRun] at stays
  case fatal notReady _ => exact absurd ⟨h.keyValid, h.ivValid⟩ notReady
  case expanded => exact { h with keyValid := rfl }
  case ivLoaded => exact { h with ivValid := fun _ => rfl }
  all_goals exact { h with }

/-- Every transaction that stays in the run keeps P. -/
def KeptInRun (P : State → Prop) : Prop :=
  ∀ ⦃i : Instr⦄ ⦃s : State⦄, i.wellFormed = true → staysInRun i = true → P s → P (issue i s)

theorem keptInRun_inRun (m : ChainMode) : KeptInRun (InRun m) := fun _ _ wf stays h =>
  effect_inRun stays (exec_effect (exec_issue wf h.notBusy)) { h with }

theorem keptInRun_keyed (m : ChainMode) : KeptInRun (Keyed m) := fun i _ wf stays h =>
  { keptInRun_inRun m wf stays h.toInRun with
    keyValid := (keyValidRule.1 i _ _ (exec_issue wf h.notBusy)).2.1 stays h.keyValid }

theorem keptInRun_ready (m : ChainMode) : KeptInRun (Ready m) := fun _ _ wf stays h =>
  effect_ready stays (exec_effect (exec_issue wf h.notBusy)) { h with }

section

variable {P : State → Prop} (kept : KeptInRun P) {s : State} (h : P s)
include kept h

theorem writeKeyGroups_keeps (l : Line) (n : Nat) : P (writeKeyGroups l n s) :=
  List.foldlRecOn _ _ h fun _ h _ _ => kept rfl rfl h

theorem writeIvGroups_keeps (l : Line) (n : Nat) : P (writeIvGroups l n s) :=
  List.foldlRecOn _ _ h fun _ h _ _ => kept rfl rfl h

theorem writeDinGroups_keeps (l : Line) : P (writeDinGroups l s) :=
  List.foldlRecOn _ _ h fun _ h _ _ => kept rfl rfl h

theorem processBlock_keeps (l : Line) : P (processBlock l s) := kept rfl rfl (writeDinGroups_keeps kept h l)

theorem readOutput_keeps : P (readOutput s).1 := kept rfl rfl (kept rfl rfl (kept rfl rfl (kept rfl rfl h)))

end

/-! ### The configuration checks (R333 to R335) -/

/-- A KEYEXP leaves its schedule or the fatal state (R220). -/
theorem keyValid_of_execCmdKeyexp {len : Nat} {s t : State} (h : execCmdKeyexp len s = .next t)
    (noFault : t.fault = false) : t.keyValid = true := by
  rcases execCmdKeyexp_next h with ⟨fault, rfl⟩ | ⟨-, keyValid, rfl⟩ | ⟨-, -, -, rfl⟩ | ⟨-, -, -, -, rfl⟩ |
    ⟨-, -, -, -, rfl⟩
  · simp [noFault] at fault
  · exact keyValid
  · simp at noFault
  · simp at noFault
  · rfl

/-- In CBC a LOADIV leaves its IV or the fatal state (R267). -/
theorem ivValid_of_execCmdLoadiv {len : Nat} {s t : State} (h : execCmdLoadiv len s = .next t)
    (cbc : s.ctrl.mode = .cbc) (noFault : t.fault = false) : t.ivValid = true := by
  rcases execCmdLoadiv_next h with ⟨fault, rfl⟩ | ⟨-, ecb, -⟩ | ⟨-, -, ivValid, rfl⟩ | ⟨-, -, -, -, rfl⟩ |
    ⟨-, -, -, -, rfl⟩
  · simp [noFault] at fault
  · simp [cbc] at ecb
  · exact ivValid
  · simp at noFault
  · rfl

/-- What the obligation says of an outcome: a configuration error comes without output, and every other end without a
core error (R335, R342). -/
def Orderly (o : Outcome) : Prop :=
  ((∃ e, o.error = some e ∧ e ≠ .longLine) → o.output = []) ∧
    (o.error = none ∨ o.error = some .longLine → o.core.fault = false ∧ o.core.keyValid = true)

theorem orderly_of_configurationError {e : AdapterError} (other : e ≠ .longLine) (s : State) :
    Orderly ⟨s, [], some e⟩ :=
  ⟨fun _ => rfl, by simp [other]⟩

/-! ### The block lines (R336 to R340) -/

/-- The block lines end as ready as they began, with LONG_LINE at most. -/
theorem blockLines_orderly {m : ChainMode} (pol : Policies) (ls : List Line) {s : State} (ready : Ready m s)
    (out : List Byte) : Orderly (blockLines pol ls s out) := by
  induction ls generalizing s out with
  | nil => exact ⟨by simp [blockLines], fun _ => ⟨ready.noFault, ready.keyValid⟩⟩
  | cons l ls ih =>
    rw [blockLines]
    split
    · split
      case h_1 => exact ih ready out
      case h_2 => exact ⟨by simp, fun _ => ⟨ready.noFault, ready.keyValid⟩⟩
      case h_3 d _ =>
        have kept := keptInRun_ready m
        exact ih (readOutput_keeps kept (processBlock_keeps kept ready d)) _
    · exact ih ready out

/-! ### The whole adapter (Listing ADP-1) -/

theorem afterKeyCbc_orderly (pol : Policies) (lines : List Line) {s : State} (keyed : Keyed .cbc s) :
    Orderly (afterKeyCbc pol lines s) := by
  rcases lines with _ | ⟨v, rest⟩
  · exact orderly_of_configurationError (by decide) s
  · rw [afterKeyCbc]
    split
    case isTrue => exact orderly_of_configurationError (by decide) s
    split
    case isTrue => exact orderly_of_configurationError (by decide) s
    case isFalse length =>
      have written := writeIvGroups_keeps (keptInRun_keyed .cbc) keyed v (v.length / 8)
      have wf : (Instr.cmdLoadiv (v.length / 8)).wellFormed = true := by
        simp only [Instr.wellFormed, decide_eq_true_eq]
        omega
      have loaded := keptInRun_keyed .cbc wf rfl written
      dsimp only
      split
      case h_1 e shown => exact orderly_of_configurationError (ne_longLine_of_statusError shown) _
      case h_2 passed =>
        have noFault := fault_of_statusError loaded.notBusy passed
        have ivValid := ivValid_of_execCmdLoadiv (exec_issue wf written.notBusy) written.mode noFault
        have ready : Ready .cbc _ := { loaded with noFault := noFault, ivValid := fun _ => ivValid }
        exact blockLines_orderly pol rest (keptInRun_ready .cbc rfl rfl ready) []

theorem afterConfig_orderly (cfg : AdapterConfig) (pol : Policies) (lines : List Line) {s : State}
    (inRun : InRun cfg.mode s) : Orderly (afterConfig cfg pol lines s) := by
  rcases lines with _ | ⟨k, rest⟩
  · exact orderly_of_configurationError (by decide) s
  · rw [afterConfig]
    split
    case isTrue => exact orderly_of_configurationError (by decide) s
    split
    case isTrue => exact orderly_of_configurationError (by decide) s
    case isFalse length =>
      have written := writeKeyGroups_keeps (keptInRun_inRun cfg.mode) inRun k (k.length / 8)
      have wf : (Instr.cmdKeyexp (k.length / 8)).wellFormed = true := by
        simp only [Instr.wellFormed, decide_eq_true_eq]
        omega
      have expanded := keptInRun_inRun cfg.mode wf rfl written
      dsimp only
      split
      case h_1 e shown => exact orderly_of_configurationError (ne_longLine_of_statusError shown) _
      case h_2 passed =>
        have noFault := fault_of_statusError expanded.notBusy passed
        have keyValid := keyValid_of_execCmdKeyexp (exec_issue wf written.notBusy) noFault
        have keyed : Keyed cfg.mode _ := { expanded with keyValid := keyValid }
        split
        case h_1 ecb =>
          have ready : Ready cfg.mode _ :=
            { keyed with noFault := noFault, ivValid := fun cbc => by simp [keyed.mode, ecb] at cbc }
          exact blockLines_orderly pol rest (keptInRun_ready cfg.mode rfl rfl ready) []
        case h_2 cbc =>
          rw [cbc] at keyed
          exact afterKeyCbc_orderly pol rest (keptInRun_keyed .cbc rfl rfl keyed)

/-- Settles O58: the run starts with its CTRL write, which sets the mode. -/
theorem configurationErrorsComeBeforeOutput : Obligations.ConfigurationErrorsComeBeforeOutput := by
  intro cfg pol input s notBusy
  change Orderly (adapter cfg pol input s)
  rw [adapter]
  split
  case h_1 => exact orderly_of_configurationError (by decide) s
  case h_2 ksz _ =>
    rw [issue_of_not_busy rfl notBusy, after_wrCtrl]
    exact afterConfig_orderly cfg pol _ ⟨notBusy, rfl⟩

end Sys2Proof.Machine.Adapter

/-! PROOFS. The statements about errors (60_exceptions), reset and access hazards (70_reset_and_hazards). The fatal state
is entered and kept by the cases of `Effect`; what a transaction meets while BUSY = 1 is decided by its direction; and in
reset an implementation stands still. -/

namespace Sys2Proof.Machine

/-! ### Entering the fatal state (R361, R363) -/

/-- The fatal codes are 1 to 5 (R361). -/
theorem code_of_isFatal {c : ErrorCode} (fatal : c.isFatal = true) :
    c.code = 1 ∨ c.code = 2 ∨ c.code = 3 ∨ c.code = 4 ∨ c.code = 5 := by
  revert fatal
  cases c <;> decide

/-- Settles O27: the case `fatal` is the update of Fatal(code), and every other keeps FAULT or clears it. -/
theorem fatalIsPrecise : Obligations.FatalIsPrecise := by
  intro i s t h noFault fault
  cases exec_effect h
  case fatal c code _ _ _ => exact ⟨c, code_of_isFatal code, raiseFatal_eq c s⟩
  all_goals simp [noFault] at fault

/-! ### The fatal state (R365, R366) -/

/-- A non-fatal error does nothing in the fatal state, so a reserved opcode does nothing (R265, R364). -/
theorem reservedCommand_of_fault {s : State} (fault : s.fault = true) : reservedCommand s = .next s := by
  rw [reservedCommand, raiseError, if_pos fault]

/-- In the fatal state only a read or a write of a data register is left to a run, and neither changes STATUS (R365). -/
theorem Effect.keeps_fatal {i : Instr} {s t : State} (e : Effect s i t) (stays : staysInRun i = true)
    (fault : s.fault = true) : t.fault = true ∧ t.errCode = s.errCode := by
  cases e
  case runStarted => simp [staysInRun] at stays
  case cleared => simp [staysInRun] at stays
  case nonFatal noFault _ => simp [fault] at noFault
  case fatal noFault _ _ => simp [fault] at noFault
  case expanded noFault _ _ => simp [fault] at noFault
  case ivLoaded noFault _ _ => simp [fault] at noFault
  case blockDone noFault _ _ => simp [fault] at noFault
  all_goals exact ⟨fault, rfl⟩

/-- What ends a run leaves FAULT = 0 and ERRCODE = 0 (R366). -/
theorem leaves_fatal_of_not_staysInRun {i : Instr} {s t : State} (h : exec i s = .next t)
    (ends : staysInRun i = false) : t.fault = false ∧ t.errCode = .none := by
  rcases exec_of_not_staysInRun h ends with ⟨ksz, dir, mode, -, rfl⟩ | ⟨-, rfl⟩
  · exact ⟨rfl, rfl⟩
  · exact ⟨rfl, rfl⟩

/-- Settles O28: each command checks FAULT first, no effect that stays in the run clears it, and both that end the run
do. -/
theorem fatalStateIsLeftOnlyByCtrlClearOrReset : Obligations.FatalStateIsLeftOnlyByCtrlClearOrReset := by
  refine ⟨fun s => ⟨resetInput_fault s, resetInput_errCode s⟩, fun i s t h fault => ⟨fun command => ?_,
    fun stays => (exec_effect h).keeps_fatal stays fault, leaves_fatal_of_not_staysInRun h⟩⟩
  have noEffect : exec i s = .next s := by
    rcases command with ⟨len, rfl⟩ | ⟨len, rfl⟩ | rfl | reserved | rfl
    · exact execCmdKeyexp_of_fault fault
    · exact execCmdLoadiv_of_fault fault
    · exact execCmdBlock_of_fault fault
    · rw [exec_of_mem_reservedOpcodes reserved, reservedCommand_of_fault fault]
    · rfl
  simpa [noEffect] using h.symm

/-! ### After the first BLOCK of a run (R368) -/

/-- What every instruction of a run keeps holds after all of them. -/
theorem afterAll_of_kept {P : State → Prop}
    (kept : ∀ (i : Instr) (s : State), staysInRun i = true → P s → P (after i s))
    {is : List Instr} (stay : ∀ i ∈ is, staysInRun i = true) {s : State} (h : P s) : P (afterAll is s) := by
  induction is generalizing s with
  | nil => exact h
  | cons i is ih =>
    obtain ⟨stays, stay'⟩ := List.forall_mem_cons.1 stay
    exact ih stay' (kept i s stays h)

/-- FAULT is 0, and every check that could raise a fatal error has been passed: the key and the IV are there. -/
def PastFatalChecks (s : State) : Prop := s.fault = false ∧ KeyAndIvReady s

/-- Within the run no effect raises a fatal error any more, and none takes the key or the IV away. -/
theorem Effect.keeps_pastFatalChecks {i : Instr} {s t : State} (e : Effect s i t) (stays : staysInRun i = true)
    (h : PastFatalChecks s) : PastFatalChecks t := by
  obtain ⟨noFault, ready⟩ := h
  cases e
  case runStarted => simp [staysInRun] at stays
  case cleared => simp [staysInRun] at stays
  case fatal notReady _ => exact absurd ready notReady
  case expanded => exact ⟨noFault, rfl, ready.2⟩
  case ivLoaded => exact ⟨noFault, ready.1, fun _ => rfl⟩
  all_goals exact ⟨noFault, ready⟩

/-- A BLOCK that succeeds has passed the checks (R269). -/
theorem pastFatalChecks_of_execCmdBlock {s t : State} (h : execCmdBlock s = .next t) (before : s.fault = false)
    (succeeds : t.fault = false) : PastFatalChecks t := by
  rcases execCmdBlock_next h with ⟨fault, -⟩ | ⟨-, -, rfl⟩ | ⟨-, -, -, -, rfl⟩ | ⟨-, keyValid, hasIv, y, rfl, -⟩
  · simp [before] at fault
  · simp at succeeds
  · simp at succeeds
  · exact ⟨before, keyValid, hasIv⟩

/-- Settles O38, by the invariant `PastFatalChecks` along the rest of the run. -/
theorem noFatalErrorAfterTheFirstBlock : Obligations.NoFatalErrorAfterTheFirstBlock := by
  intro is s t stay h before succeeds
  obtain ⟨noFault, -⟩ := afterAll_of_kept (P := PastFatalChecks)
    (fun i s stays past => (exec_effect (exec_eq_after i s)).keeps_pastFatalChecks stays past) stay
    (pastFatalChecks_of_execCmdBlock h before succeeds)
  exact noFault

/-! ### Access while BUSY = 1 (R411) -/

/-- The writes are the rows from 12 on of the opcode table (R111). -/
theorem le_row_decodeWrite (a : BitVec 5) (v : Word) : 12 ≤ (decodeWrite a v).row := by
  unfold decodeWrite
  repeat' split
  case h_2 =>
    rw [row_decodeCommand]
    omega
  all_goals simp [decodeCtrl, Instr.row]

theorem decode_ne_rdStatus_of_write {t : Transaction} (write : weOf t = true) : decode t ≠ .rdStatus := by
  intro poll
  have row := le_row_decodeWrite (addrOf t) (dataOf t)
  rw [show decodeWrite (addrOf t) (dataOf t) = .rdStatus by simpa [decode, write] using poll] at row
  simp [Instr.row] at row

section

variable {t : Transaction} {s : State}

theorem busyAccess_of_write (write : weOf t = true) :
    busyAccess t s = { s with errCode := if s.fault then s.errCode else .busyAccess } := by
  rw [busyAccess, if_pos write, raiseError_eq]

theorem busyAccess_of_read (read : weOf t = false) :
    busyAccess t s = { s with rdata := some (Config.freeReadData s.draws), draws := s.draws + 1 } := by
  rw [busyAccess, if_neg (by simp [read]), respond]

variable {rest : List HostEvent} (h : s.inputs = .transaction t :: rest)
include h

/-- While BUSY = 1 every transaction but a STATUS read is R411's. -/
theorem step_of_busy (busy : s.busy = true) (notPoll : decode t ≠ .rdStatus) :
    step s = .next (busyAccess t { s with inputs := rest, rdata := none }) := by
  rw [step_of_transaction h, if_pos ⟨busy, notPoll⟩]

/-- A STATUS read is performed, whatever BUSY is. -/
theorem step_of_rdStatus (poll : decode t = .rdStatus) :
    step s = exec .rdStatus { s with inputs := rest, rdata := none } := by
  rw [step_of_transaction h, if_neg (by simp [poll]), poll]

end

/-- Settles O7: a write is no STATUS read, and WE tells the two kinds of R411's transactions apart. -/
theorem accessWhileBusy : Obligations.AccessWhileBusy := by
  refine fun s t rest busy h => ⟨fun write => ?_, fun read notPoll => ⟨Config.freeReadData s.draws, ?_⟩,
    step_of_rdStatus h⟩
  · rw [step_of_busy h busy (decode_ne_rdStatus_of_write write), busyAccess_of_write write]
  · rw [step_of_busy h busy notPoll, busyAccess_of_read read]

/-! ### The reset pin (R400) -/

namespace Timing

/-- One of the two levels of `rst` asserts reset, in every style. -/
theorem asserted_not (style : Config.ResetStyle) (level : Bool) : asserted style (!level) = !asserted style level := by
  cases style <;> simp [asserted]

section

variable {p : Params} {m : Impl} {level : Bool}

/-- Asserting reset drops the command in progress with the cycles that it had left. -/
theorem pinStep_of_asserted (on : asserted p.style level = true) :
    pinStep p m (.rst level) = ⟨resetInput m.core, 0, true⟩ := by
  rw [pinStep, if_pos on]

/-- Deasserting reset opens the port and does nothing else. -/
theorem pinStep_of_not_asserted (off : asserted p.style level = false) :
    pinStep p m (.rst level) = { m with inReset := false } := by
  rw [pinStep, if_neg (by simp [off])]

/-- "In reset ... the port accepts no transaction". -/
theorem issue_of_inReset (inReset : m.inReset = true) (t : Transaction) : issue p t m = m := by
  rw [issue, if_pos inReset]

theorem run_transactions_of_inReset (inReset : m.inReset = true) (ts : List Transaction) :
    run p m (ts.map .transaction) = m := by
  induction ts with
  | nil => rfl
  | cons t ts ih =>
    rw [List.map_cons, run, pinStep, issue_of_inReset inReset, ih]

end

/-- Settles O55: the core is the reset input's result when reset is asserted, while transactions follow, and when reset is
deasserted. -/
theorem resetAbortsACommand : Obligations.ResetAbortsACommand := by
  intro p m level ts on m' m''
  have inReset : m' = ⟨resetInput m.core, 0, true⟩ := by
    unfold m'
    rw [run, pinStep_of_asserted on, run_transactions_of_inReset rfl]
  have released : m'' = { m' with inReset := false } :=
    pinStep_of_not_asserted (by rw [asserted_not, on, Bool.not_true])
  rw [released, inReset]
  exact ⟨rfl, rfl, rfl, rfl, rfl, rfl, rfl⟩

end Timing

end Sys2Proof.Machine
